-- ==== Sys2Proof/Word.lean ====
section
/-! DEFINITION. The word types of the PL8 and their byte order (11_formats_and_register_map.md, R178). -/

namespace Sys2Proof

/-- A byte of a ring entry or of a tap frame. -/
abbrev Byte := BitVec 8

/-- A 16-bit field: a tag, the report sequence, a CRC. -/
abbrev Word16 := BitVec 16

/-- A register of the window. -/
abbrev Word32 := BitVec 32

/-- A port number that exists. -/
abbrev PortNo := Fin 8

/-- The eight ports in rising order. -/
def allPorts : List PortNo := [0, 1, 2, 3, 4, 5, 6, 7]

/-- One value for each port. -/
def mapPorts {α : Type} (f : PortNo → α) : Vector α 8 := #v[f 0, f 1, f 2, f 3, f 4, f 5, f 6, f 7]

end Sys2Proof
end

