-- ==== Sys2Proof/Config.lean ====
section
/-! DEFINITION. The PL8's fixed durations and bounds. Time is in microseconds of the Timebase. The spec leaves no
value of an instruction undefined, so there is no free value here. -/

namespace Sys2Proof.Config

/-- Attach debounce, 20 ms (R43). -/
def attachDebounce : Nat := 20000
/-- Detach debounce, 10 ms (R55). -/
def detachDebounce : Nat := 10000
/-- Fault input filter, 50 us (R56). -/
def faultFilter : Nat := 50
/-- One limit write on the bus, 32 us (R46). -/
def limitWriteTime : Nat := 32
/-- Settle after a raising write, 5 ms (R47). -/
def settleTime : Nat := 5000
/-- Idle guard, 200 us of line high (R73). -/
def idleGuard : Nat := 200
/-- ACK window, 3 ms (R75). -/
def ackWindow : Nat := 3000
/-- A line clear sent, 2 ms (R82). -/
def clearSendTime : Nat := 2000
/-- The low that is a received line clear, 1.5 ms (R83). -/
def clearDetectTime : Nat := 1500
/-- The clear rest, 500 ms (R61). -/
def clearRestTime : Nat := 500000
/-- The link test's timer, 10 ms (R176). -/
def linkTestTime : Nat := 10000
/-- Microseconds in a millisecond. -/
def ms : Nat := 1000
/-- Microseconds in a second. -/
def second : Nat := 1000000

/-- Backlog capacity (R166). -/
def backlogSize : Nat := 24
/-- Open slots (R143). -/
def slotCount : Nat := 8
/-- The largest target capacity (R132). -/
def maxTarget : Nat := 4000
/-- The largest level of a port (00_scope.md, Power). -/
def maxLevel : Nat := 400
/-- A counter's last value (00_scope.md, Counters; R172). -/
def counterMax : Nat := 65535
/-- The arrival counter's last value (R22). -/
def arrivalMax : Nat := 4294967295
/-- Consecutive collisions on one frame that lose the link (R78). -/
def collisionLimit : Nat := 8
/-- Preamble and start of a frame, 240 us (R63). -/
def frameLead : Nat := 240
/-- A byte on the line, 80 us (R63). -/
def byteTime : Nat := 80
/-- Input low threshold of the digital inputs, in millivolts (00_scope.md, Electrical and Timing Summary; R62, entry 47). -/
def inputLow : Int := 800
/-- Input high threshold of the digital inputs, in millivolts (00_scope.md, Electrical and Timing Summary; R62, entry 47). -/
def inputHigh : Int := 2000
/-- IDENT (R159). -/
def ident : Word32 := 0x42A80801#32

end Sys2Proof.Config
end

