-- ==== Sys2Proof/Syntax.lean ====
section
/-! DEFINITION. The commands of the PL8: one constructor for each row of spec/opcode_table.json.

A command of the host carries the fields of its ring entry as the entry holds them (11, Command Entry), so that a
value out of range can be written and is refused by the command's own rule (R145). A command that is an event of
the bus, a pin, the tap line or a timer carries what the event brings. -/

namespace Sys2Proof

/-- The presence bands (R40). -/
inductive Band where
  | absent
  | c1
  | c2
  | c3
  | low
deriving DecidableEq, Repr

/-- The ten policy bytes and words of a CONFIG_PORT entry, unvalidated (11, Command Entry). -/
structure PolicyFields where
  priority : Byte
  ceiling : Word16
  autoGrant : Byte
  leaseLength : Byte
  cutDeadline : Byte
  decisionWindow : Byte
  waitLimit : Byte
  preemptible : Byte
  retryLimit : Byte
  faultCooldown : Byte
deriving DecidableEq, Repr

/-- How wide a write on the register window is (R178: a narrower write than a word is ignored). -/
inductive AccessWidth where
  | byte
  | half
  | word
deriving DecidableEq, Repr

inductive Instr where
  /-- POWER_ON_RESET (R1, R162): RESET# goes low. -/
  | powerOnReset
  /-- RESET_RELEASE (R1): RESET# returns high. -/
  | resetRelease
  /-- SOFT_RESET (R162): a write of CTRL with SOFT_RESET 1. -/
  | softReset
  /-- ENABLE (R160): a write of CTRL with ENABLE 1 and the interrupt enables given (R159). -/
  | enable (reportIe errorIe : Bool)
  /-- DISABLE (R161): a write of CTRL with ENABLE 0 and the interrupt enables given (R159). -/
  | disable (reportIe errorIe : Bool)
  /-- INT_CLEAR (R171): a write of INT. -/
  | intClear (value : Word32)
  /-- CMD_TAIL_WRITE (R169). -/
  | cmdTailWrite (value : Word32)
  /-- RPT_HEAD_WRITE (R169). -/
  | rptHeadWrite (value : Word32)
  /-- REGISTER_WRITE (R159, R178): a write at a byte offset of the window. -/
  | registerWrite (offset : BitVec 6) (width : AccessWidth) (value : Word32)
  /-- COMMAND_FETCH (R163): the read of the entry at CMD_HEAD completes with these 32 bytes. -/
  | commandFetch (entry : List Byte)
  /-- HELD_ENTRY_TAKE (R163). -/
  | heldEntryTake
  /-- COMMAND_FETCH_BUS_ERROR (R170). -/
  | commandFetchBusError
  /-- REPORT_WRITE (R165). -/
  | reportWrite
  /-- REPORT_WRITE_BUS_ERROR (R170). -/
  | reportWriteBusError
  /-- CONFIG_PORT (R148, R149). -/
  | configPort (tag : Word16) (port : Byte) (fields : PolicyFields)
  /-- PORT_ENABLE (R150). -/
  | portEnable (tag : Word16) (port : Byte)
  /-- PORT_DISABLE (R151, R152). -/
  | portDisable (tag : Word16) (port : Byte)
  /-- SET_BUDGET (R132 to R134). -/
  | setBudget (tag : Word16) (target : Word16) (preemption : Byte)
  /-- DECIDE (R98, R99). -/
  | decide (tag : Word16) (port : Byte) (claimTag : Word16) (verdict tier : Byte)
  /-- REVOKE (R124). -/
  | revoke (tag : Word16) (port : Byte) (target : Byte) (override : Word16)
  /-- LINE_CLEAR (R85). -/
  | lineClear (tag : Word16) (port : Byte)
  /-- RELAY (R153): the byte count and the sixteen places of the list. -/
  | relay (tag : Word16) (port : Byte) (count : Byte) (bytes : List Byte)
  /-- QUERY_PORT (R19). -/
  | queryPort (tag : Word16) (port : Byte) (sect : Byte)
  /-- QUERY_POOL (R39). -/
  | queryPool (tag : Word16)
  /-- QUERY_LINK (R174). -/
  | queryLink (tag : Word16) (port : Byte) (clear : Byte)
  /-- LINK_TEST (R175): the pattern length and the sixteen places of the list. -/
  | linkTest (tag : Word16) (port : Byte) (mode length : Byte) (pattern : List Byte)
  /-- SYNC (R155). -/
  | sync (tag : Word16)
  /-- ABORT (R156): `target` is the tag of the command to end. -/
  | abort (tag : Word16) (target : Word16)
  /-- PRESENCE_BAND_CHANGE (R41): PSNS is now in this band. -/
  | presenceBandChange (port : PortNo) (band : Band)
  /-- ATTACH (R44): the attach debounce concludes. -/
  | attach (port : PortNo)
  /-- DETACH (R57): the detach debounce expires. -/
  | detach (port : PortNo)
  /-- FAULT_INPUT_FILTERED (R56): the new level of PFLT has held for 50 us. -/
  | faultInputFiltered (port : PortNo)
  /-- LIMIT_WRITE_MADE (R46): the last clock of the write in transfer is sent. -/
  | limitWriteMade
  /-- SETTLED (R47): the settle timer expires. -/
  | settled (port : PortNo)
  /-- FRAME_RECEIVED (R66): a reception ends, with the bytes collected until then. -/
  | frameReceived (port : PortNo) (bytes : List Byte)
  /-- TRANSMIT_BEGIN (R73). -/
  | transmitBegin (port : PortNo)
  /-- FRAME_SENT (R75). -/
  | frameSent (port : PortNo)
  /-- COLLISION (R77). -/
  | collision (port : PortNo)
  /-- ACK_WINDOW_EXPIRY (R79). -/
  | ackWindowExpiry (port : PortNo)
  /-- CLEAR_SENT (R82). -/
  | clearSent (port : PortNo)
  /-- LINE_CLEAR_RECEIVED (R83, R84). -/
  | lineClearReceived (port : PortNo)
  /-- LEASE_EXPIRY (R109). -/
  | leaseExpiry (port : PortNo)
  /-- DECISION_WINDOW_EXPIRY (R97). -/
  | decisionWindowExpiry (port : PortNo)
  /-- WAIT_LIMIT_EXPIRY (R37). -/
  | waitLimitExpiry (port : PortNo)
  /-- CUT_DEADLINE (R117). -/
  | cutDeadline (port : PortNo)
  /-- CLEAR_REST_END (R61). -/
  | clearRestEnd (port : PortNo)
  /-- FAULT_COOLDOWN_END (R59). -/
  | faultCooldownEnd (port : PortNo)
  /-- LINK_TEST_RECEPTION (R176): the reception of the test ends, with the bytes collected until then. -/
  | linkTestReception (port : PortNo) (bytes : List Byte)
  /-- LINK_TEST_TIMEOUT (R176). -/
  | linkTestTimeout (port : PortNo)
  /-- FAULT_INPUT_CHANGE (R56): PFLT is now asserted or released. -/
  | faultInputChange (port : PortNo) (asserted : Bool)
  /-- TAP_LEVEL_CHANGE (R73, R83): the tap line is now low or high. -/
  | tapLevelChange (port : PortNo) (low : Bool)
  /-- FRAME_START (R66): the receiver sees eight one-cells and a start. -/
  | frameStart (port : PortNo)
deriving DecidableEq, Repr

end Sys2Proof
end

