-- ==== Sys2Proof/Machine/State.lean ====
section
/-! DEFINITION. The state of the PL8 as plain data: the lease table (LC), the Sense Units, the Power Stage Interface, the
Tap Link Engines, the Budget Pool and the Queue Engine, each as the block that owns it, and the queue of commands that
wait. Time left on a timer is in microseconds; `none` is a stopped timer. -/

namespace Sys2Proof.Machine

open Sys2Proof

/-! ### The lease table (01_the_lease_table.md) -/

/-- The ten port states (R2, R14). -/
inductive PortState where
  | off
  | vacant
  | sensing
  | powering
  | starved
  | powered
  | claiming
  | cutting
  | clearing
  | faulted
deriving DecidableEq, Repr

/-- The electrical class (R3). -/
inductive PowerClass where
  | none
  | one
  | two
  | three
deriving DecidableEq, Repr

/-- The ten policy fields (R7), in the units CONFIG_PORT writes (R148): windows and the deadline in 10 ms, the wait
limit and the fault cooldown in 100 ms, the lease length in seconds. -/
structure Policy where
  priority : Nat
  ceiling : Nat
  autoGrant : Bool
  leaseLength : Nat
  cutDeadline : Nat
  decisionWindow : Nat
  waitLimit : Nat
  preemptible : Bool
  retryLimit : Nat
  faultCooldown : Nat
deriving DecidableEq, Repr

/-- The defaults of R7. -/
def Policy.default : Policy where
  priority := 3
  ceiling := 0
  autoGrant := false
  leaseLength := 30
  cutDeadline := 20
  decisionWindow := 25
  waitLimit := 20
  preemptible := true
  retryLimit := 2
  faultCooldown := 10

/-- The module record (R10); the tier count is the length of the list. -/
structure ModuleRec where
  id : Word32
  tiers : List Nat
deriving DecidableEq, Repr

/-- The lease record (R11). `running` is false while the timer is stopped in GRANTING and after it has reached 0. -/
structure LeaseRec where
  tier : Nat
  units : Nat
  length : Nat
  remaining : Nat
  running : Bool
deriving DecidableEq, Repr

/-- The claim phases (R12). -/
inductive ClaimPhase where
  | awaitHost
  | awaitBudget
  | granting
deriving DecidableEq, Repr

/-- The claim record (R12), with the lease length kept for the queued GRANT (R103). A claim in AWAIT_BUDGET with no
timer is one that entered with a wait limit of 0 (R37). -/
structure ClaimRec where
  tag : Word16
  tierClaimed : Nat
  moduleClaimId : Byte
  phase : ClaimPhase
  granted : Option Nat
  timer : Option Nat
  grantLength : Option Nat
deriving DecidableEq, Repr

/-- The cut causes (R13). -/
inductive CutCause where
  | revoke
  | expiry
  | ceiling
  | preempt
  | shrink
deriving DecidableEq, Repr

/-- The cut record (R13). `running` is false once the deadline has stopped (R115) or has reached 0. -/
structure CutRec where
  target : Nat
  targetUnits : Nat
  deadline : Nat
  running : Bool
  cause : CutCause
  cmdTag : Option Word16
deriving DecidableEq, Repr

/-- The kinds of tap frame (R64). -/
inductive FrameKind where
  | ack
  | offer
  | grant
  | deny
  | cut
  | note
  | announce
  | claim
  | renew
  | release
  | done
deriving DecidableEq, Repr

/-- A lowering write that LC has requested and PSI has not made (R119, R89): what follows at the lowered report. -/
inductive Lowering where
  /-- A RELEASE in POWERED (R120). -/
  | release
  /-- A partial release in CUTTING (R116). -/
  | partialRelease
  /-- The concluding event of a cut at a tier, by the deadline or not (R115 to R117). -/
  | conclude (tier : Nat) (forced : Bool)
  /-- The drop to floor of an announcement, whose payload waits for it (R89). -/
  | drop (payload : List Byte)
deriving DecidableEq, Repr

/-- An event that waits at LC while it lowers the port (R89, R119). -/
inductive Waiting where
  | frame (kind : FrameKind) (payload : List Byte)
  | revoke (order : Nat) (tag : Word16) (target : Nat) (override : Nat)
  | ceilingCut
  | leaseExpiry
  | cutDeadline
deriving DecidableEq, Repr

/-- One lease table entry (R1), with LC's port timers and what waits at LC. The applied level is PSI's. -/
structure Entry where
  state : PortState
  cls : PowerClass
  floor : Nat
  held : Nat
  tier : Nat
  policy : Policy
  faults : Nat
  strikes : Nat
  lastDraw : Option Nat
  module : Option ModuleRec
  lease : Option LeaseRec
  claim : Option ClaimRec
  cut : Option CutRec
  clearRest : Option Nat
  cooldown : Option Nat
  lowering : Option Lowering
  waiting : List Waiting
  deferredAnnounce : Option (List Byte)
  deferredCeiling : Bool
deriving DecidableEq, Repr

/-- An entry after power-on and soft reset (R1). -/
def Entry.reset : Entry where
  state := .off
  cls := .none
  floor := 0
  held := 0
  tier := 0
  policy := Policy.default
  faults := 0
  strikes := 0
  lastDraw := none
  module := none
  lease := none
  claim := none
  cut := none
  clearRest := none
  cooldown := none
  lowering := none
  waiting := []
  deferredAnnounce := none
  deferredCeiling := false

/-! ### The Sense Units (03_presence_floor_power_and_faults.md) -/

/-- The four modes of a Sense Unit (R41). -/
inductive SenseMode where
  | disabled
  | watch
  | debounce
  | attached
deriving DecidableEq, Repr

/-- A Sense Unit: `band` and `fault` follow the inputs PSNS and PFLT, `sampled` is the filtered fault input (R56). -/
structure SenseUnit where
  mode : SenseMode
  band : Band
  attachTimer : Option Nat
  detachTimer : Option Nat
  detachReported : Bool
  fault : Bool
  sampled : Bool
  filter : Option Nat
deriving DecidableEq, Repr

/-- A Sense Unit after a reset with its inputs as they are (R41). DESIGN CHOICE: the sampled fault state is the level of
the input (entry 9). -/
def SenseUnit.atReset (band : Band) (fault : Bool) : SenseUnit where
  mode := .disabled
  band := band
  attachTimer := none
  detachTimer := none
  detachReported := false
  fault := fault
  sampled := fault
  filter := none

/-! ### The Power Stage Interface (03_presence_floor_power_and_faults.md) -/

/-- The direction of a limit write (R45). -/
inductive WriteDir where
  | raise
  | lower
  | teardown
deriving DecidableEq, Repr

/-- A limit write (R45). -/
structure LimitWrite where
  value : Nat
  dir : WriteDir
deriving DecidableEq, Repr

/-- PSI's state for one port (R45). -/
structure PsiPort where
  pen : Bool
  applied : Nat
  pendingWrite : Option LimitWrite
  settle : Option Nat
deriving DecidableEq, Repr

/-- The write in transfer on the limit bus (R46); `void` marks one that a teardown keeps from being made (R49). -/
structure Transfer where
  port : PortNo
  write : LimitWrite
  void : Bool
  left : Nat
deriving DecidableEq, Repr

/-- PSI: eight ports, the service list and the bus (R45, R46). -/
structure Psi where
  ports : Vector PsiPort 8
  service : List PortNo
  transfer : Option Transfer
deriving DecidableEq, Repr

/-- PSI after power-on and soft reset (R45). -/
def Psi.reset : Psi where
  ports := Vector.replicate 8
    { pen := false, applied := 0, pendingWrite := none, settle := none }
  service := []
  transfer := none

/-! ### The Tap Link Engines (04_the_tap_link.md, 10_link_diagnostics.md) -/

/-- The deny reasons (11, Tap Frame). -/
inductive DenyReason where
  | overOffer
  | noBudget
  | hostDenied
  | noDecision
  | busy
  | reducing
  | badTier
deriving DecidableEq, Repr

/-- A frame the part sends (R64). A NOTE carries the order number and the tag of its RELAY (R71). -/
inductive TxFrame where
  | ack (seq : BitVec 4)
  | offer (permitted leaseLength : Nat)
  | grant (tier units leaseLength : Nat) (moduleClaimId : Byte)
  | deny (tier : Nat) (reason : DenyReason) (moduleClaimId : Byte)
  | cut (target deadline : Nat)
  | note (order : Nat) (tag : Word16) (bytes : List Byte)
deriving DecidableEq, Repr

/-- A frame with its count of consecutive collisions (R78). -/
structure TxItem where
  frame : TxFrame
  collisions : Nat
deriving DecidableEq, Repr

/-- What the engine has on the line (R65): a frame, first sent or sent `again`, or a line clear with the order number
of the command that asked for it. -/
inductive LineUse where
  | frame (item : TxItem) (seq : BitVec 4) (again : Bool) (left : Nat)
  | clear (order : Option Nat) (left : Nat)
deriving DecidableEq, Repr

/-- The frame awaiting acknowledgment with its sequence (R75). -/
structure Awaited where
  item : TxItem
  seq : BitVec 4
deriving DecidableEq, Repr

/-- The thirteen link counters (R172, R173), in the order of the link snapshot (R179). -/
structure Counters where
  framesSent : Nat
  goodFrames : Nat
  crcErrors : Nat
  malformed : Nat
  duplicates : Nat
  retries : Nat
  collisions : Nat
  linkLosses : Nat
  clearsSent : Nat
  clearsReceived : Nat
  protocolErrors : Nat
  strikesTotal : Nat
  notesDropped : Nat
deriving DecidableEq, Repr

/-- All thirteen counters at 0 (R172). -/
def Counters.zero : Counters := ⟨0, 0, 0, 0, 0, 0, 0, 0, 0, 0, 0, 0, 0⟩

/-- The modes of a link test (R175). -/
inductive TestMode where
  | internal
  | external
deriving DecidableEq, Repr

/-- How far a link test is (R176): an EXTERNAL frame waits for the idle guard; the frame is being sent; it has been
sent, so many microseconds ago. -/
inductive TestPhase where
  | waiting
  | sending (left : Nat)
  | sent (elapsed : Nat)
deriving DecidableEq, Repr

/-- A running link test (R176). -/
structure LinkTest where
  mode : TestMode
  pattern : List Byte
  order : Nat
  timer : Nat
  phase : TestPhase
deriving DecidableEq, Repr

/-- A Tap Link Engine (R65). `tapLow` is the level of the line, `lowLeft` what is left to 1.5 ms of the low being
measured (R83), `receiving` a reception in progress and `ignoring` the rest after an over-long length byte (R66). -/
structure Tle where
  queue : List TxItem
  line : Option LineUse
  awaiting : Option Awaited
  retransmit : Bool
  window : Option Nat
  retries : Nat
  txSeq : BitVec 4
  lastRx : Option (BitVec 4 × FrameKind)
  guard : Nat
  receiver : Bool
  detector : Bool
  receiving : Bool
  ignoring : Bool
  tapLow : Bool
  lowLeft : Option Nat
  counters : Counters
  test : Option LinkTest
deriving DecidableEq, Repr

/-- An engine after power-on and soft reset with the line as it is (R65, R177). -/
def Tle.atReset (tapLow : Bool) : Tle where
  queue := []
  line := none
  awaiting := none
  retransmit := false
  window := none
  retries := 0
  txSeq := 0
  lastRx := none
  guard := 0
  receiver := false
  detector := false
  receiving := false
  ignoring := false
  tapLow := tapLow
  lowLeft := none
  counters := Counters.zero
  test := none

/-! ### The Budget Pool (02_the_budget_pool.md) -/

/-- The kinds of wait-list entry (R28). -/
inductive WaitKind where
  | floor
  | tier
deriving DecidableEq, Repr

/-- A wait-list entry (R28). -/
structure WaitEntry where
  port : PortNo
  kind : WaitKind
  need : Nat
  priority : Nat
  arrival : Nat
deriving DecidableEq, Repr

/-- What BP orders of LC at the end of an admission pass (R128, R136, R137). -/
inductive PoolOrder where
  | preempt (port : PortNo)
  | shrink (port : PortNo)
  | withdraw (port : PortNo)
deriving DecidableEq, Repr

/-- The pool account (R20). `orders` is the model's own: what BP has sent to LC in this step and LC has not taken yet
(entries 10 and 26). -/
structure Pool where
  target : Nat
  committed : Nat
  effective : Nat
  preemption : Bool
  claimTag : Nat
  arrival : Nat
  waitList : List WaitEntry
  grantOrder : Vector (Option Nat) 8
  orders : List PoolOrder
deriving DecidableEq, Repr

/-- The pool after power-on and soft reset (R20). -/
def Pool.reset : Pool where
  target := 0
  committed := 0
  effective := 0
  preemption := false
  claimTag := 1
  arrival := 0
  waitList := []
  grantOrder := Vector.replicate 8 none
  orders := []

/-! ### The Queue Engine (08_host_commands.md, 09_rings_reports_and_the_register_window.md) -/

/-- The engine states (R158). -/
inductive EngineState where
  | stopped
  | running
  | halted
deriving DecidableEq, Repr

/-- The STATUS causes (11, Register Window). -/
inductive HaltCause where
  | none
  | config
  | cmdIndex
  | rptIndex
  | fetchBus
  | writeBus
deriving DecidableEq, Repr

/-- The seventeen completion statuses (R146). -/
inductive Status where
  | ok
  | forced
  | badCommand
  | badPort
  | badParam
  | badState
  | noClaim
  | queueFull
  | aborted
  | notFound
  | superseded
  | detached
  | faulted
  | cleared
  | withdrawn
  | linkLost
  | linkFault
deriving DecidableEq, Repr

/-- The line clear causes a notice gives (11, Codes used in reports). -/
inductive ClearCause where
  | received
  | linkLost
  | overdraw
  | host
deriving DecidableEq, Repr

/-- The fourteen notices with their payloads (11, Notice payloads). -/
inductive Notice where
  | attach (cls : PowerClass)
  | detach
  | starved (cls : PowerClass) (floor : Nat)
  | announced (moduleId : Word32) (permitted : Nat) (tiers : List Nat)
  | claim (tag : Word16) (tier units : Nat) (moduleClaimId : Byte) (windowMs : Nat)
  | claimDenied (tag : Word16) (reason : DenyReason)
  | leaseChanged (tier units : Nat)
  | leaseLapsed (tier units : Nat)
  | cutForced (oldTier target : Nat) (cause : CutCause)
  | fault (count : Nat)
  | lockout
  | lineClear (cause : ClearCause)
  | linkLost (kind : FrameKind)
  | note (bytes : List Byte)
deriving DecidableEq, Repr

/-- A report of the backlog (R165, R179). `linkSnapshot` is the completion OK of a QUERY_LINK. -/
inductive Report where
  | completion (tag : Word16) (code port : Byte) (status : Status) (result : List Byte)
  | linkSnapshot (tag : Word16) (port : PortNo) (clear : Bool) (counters : Counters)
  | notice (port : PortNo) (content : Notice)
  | summary (port : PortNo) (kinds : BitVec 16) (notesDropped : Nat) (state : PortState)
deriving DecidableEq, Repr

/-- A port summary (R168): bit n of `kinds` stands for the notice kind of code n. -/
structure Summary where
  kinds : BitVec 16
  notesDropped : Nat
deriving DecidableEq, Repr

/-- An empty summary (R168). -/
def Summary.empty : Summary := ⟨0#16, 0⟩

/-- What an open command keeps beside its tag (R143): its kind and what its result needs. -/
inductive OpenKind where
  | portDisable (taken : PortState)
  | setBudget
  | revoke
  | lineClear
  | relay (count : Byte)
  | linkTest
  | sync (waitsFor : List Nat) (count : Nat)
deriving DecidableEq, Repr

/-- An open slot in use (R143). `bound` is the port it is bound to (R144), `port` the port byte of its completion. -/
structure Slot where
  order : Nat
  tag : Word16
  code : Byte
  port : Byte
  bound : Option PortNo
  kind : OpenKind
deriving DecidableEq, Repr

/-- The Queue Engine (R158). The open slots stand in the order taken. `fetching` and `writing` say that a ring read or a
report write is in progress. `reserved` (R167) and the bus master's outputs, `lastRead`, the address of the last ring
read begun, and `lastWrite`, the last report written, are the model's (entries 26 and 24). -/
structure Qe where
  engine : EngineState
  enable : Bool
  reportIe : Bool
  errorIe : Bool
  cause : HaltCause
  intReport : Bool
  intError : Bool
  cmdBase : Word32
  cmdSize : Word32
  cmdHead : Word32
  cmdTail : Word32
  rptBase : Word32
  rptSize : Word32
  rptHead : Word32
  rptTail : Word32
  sequence : Word16
  backlog : List Report
  slots : List Slot
  nextOrder : Nat
  summaries : Vector Summary 8
  held : Option (List Byte)
  fetching : Bool
  writing : Bool
  reserved : Bool
  lastRead : Option Word32
  lastWrite : Option (Word32 × List Byte)
deriving DecidableEq, Repr

/-- QE after a reset, with the four base and size registers given: 0 at power-on, kept at soft reset (R158). -/
def Qe.atReset (cmdBase cmdSize rptBase rptSize : Word32) : Qe where
  engine := .stopped
  enable := false
  reportIe := false
  errorIe := false
  cause := .none
  intReport := false
  intError := false
  cmdBase := cmdBase
  cmdSize := cmdSize
  cmdHead := 0
  cmdTail := 0
  rptBase := rptBase
  rptSize := rptSize
  rptHead := 0
  rptTail := 0
  sequence := 0
  backlog := []
  slots := []
  nextOrder := 0
  summaries := Vector.replicate 8 Summary.empty
  held := none
  fetching := false
  writing := false
  reserved := false
  lastRead := none
  lastWrite := none

/-! ### The whole part -/

/-- No command stops the machine: every misuse the spec describes is a status, a counter, a halt of QE or an event
that finds nothing to do. Nobody raises a fault; having none is safe only because no behaviour is left undefined. -/
inductive Fault
deriving DecidableEq, Repr

/-- Why the machine would give a command no meaning. -/
inductive Refusal where
  /-- Raised by `exec` alone for a command that has no meaning yet; safe. No arm raises it. -/
  | notModelled (mnemonic : String)
deriving DecidableEq, Repr

/-- The PL8. -/
structure State where
  resetLow : Bool
  entries : Vector Entry 8
  senses : Vector SenseUnit 8
  psi : Psi
  tles : Vector Tle 8
  pool : Pool
  qe : Qe
  pending : List Instr
deriving DecidableEq, Repr

/-- The part just after RESET# has returned high, with no command waiting (R1, R20, R41, R45, R65, R158). DESIGN CHOICE:
no module in any outlet, no fault input asserted, every tap line high (entry 8). -/
def State.reset : State where
  resetLow := false
  entries := Vector.replicate 8 Entry.reset
  senses := Vector.replicate 8 (SenseUnit.atReset .absent false)
  psi := Psi.reset
  tles := Vector.replicate 8 (Tle.atReset false)
  pool := Pool.reset
  qe := Qe.atReset 0 0 0 0
  pending := []

end Sys2Proof.Machine
end

