-- ==== Sys2Proof/Machine/Frame.lean ====
section
/-! DEFINITION. The bytes and cells of a tap frame (R63, R64, 11 Tap Frame), the CRC, and what a reception holds when it
ends (R66 to R68). -/

namespace Sys2Proof.Machine

open Sys2Proof

/-- A Nat as a byte. -/
def byteOf (n : Nat) : Byte := BitVec.ofNat 8 n

/-- The two bytes of a 16-bit value, low byte first (R178). -/
def le16 (n : Nat) : List Byte := [byteOf n, byteOf (n / 256)]

/-- The four bytes of a 32-bit value, low byte first (R178). -/
def le32 (n : Nat) : List Byte := [byteOf n, byteOf (n / 256), byteOf (n / 65536), byteOf (n / 16777216)]

/-- Byte i of a list, 0 beyond its end. -/
def byteAt (bs : List Byte) (i : Nat) : Byte := bs.getD i 0#8

/-- The 16-bit value at byte i (R178). -/
def word16At (bs : List Byte) (i : Nat) : Word16 :=
  BitVec.ofNat 16 ((byteAt bs i).toNat + 256 * (byteAt bs (i + 1)).toNat)

/-- The 32-bit value at byte i (R178). -/
def word32At (bs : List Byte) (i : Nat) : Word32 :=
  BitVec.ofNat 32 ((word16At bs i).toNat + 65536 * (word16At bs (i + 2)).toNat)

/-! ### The check (R64) -/

/-- One bit enters the CRC register, which shifts toward its least significant bit with polynomial 0x8408. -/
def crcBit (r : Word16) (b : Bool) : Word16 :=
  if r.getLsbD 0 != b then (r >>> 1) ^^^ 0x8408#16 else r >>> 1

/-- The bits of a byte, least significant first. -/
def bitsOf (b : Byte) : List Bool := [0, 1, 2, 3, 4, 5, 6, 7].map fun i => b.getLsbD i

/-- The CRC-16 of R64: register all ones at the start, no final XOR. -/
def crc16 (bs : List Byte) : Word16 := (bs.flatMap bitsOf).foldl crcBit 0xFFFF#16

/-! ### Kinds (R64; 11, Tap Frame) -/

/-- The code of a frame kind. -/
def FrameKind.code : FrameKind → Nat
  | .ack => 0x0
  | .offer => 0x1
  | .grant => 0x2
  | .deny => 0x3
  | .cut => 0x4
  | .note => 0x7
  | .announce => 0x8
  | .claim => 0x9
  | .renew => 0xA
  | .release => 0xB
  | .done => 0xC

/-- The kind of a code; 0x5, 0x6 and 0xD to 0xF are unknown. -/
def FrameKind.ofCode : Nat → Option FrameKind
  | 0x0 => some .ack
  | 0x1 => some .offer
  | 0x2 => some .grant
  | 0x3 => some .deny
  | 0x4 => some .cut
  | 0x7 => some .note
  | 0x8 => some .announce
  | 0x9 => some .claim
  | 0xA => some .renew
  | 0xB => some .release
  | 0xC => some .done
  | _ => none

/-- The kinds a module sends, with the payload lengths R64 gives them; the others are malformed when received (R68). -/
def FrameKind.accepted : FrameKind → Nat → Bool
  | .ack, n => n = 0
  | .note, n => 1 ≤ n && n ≤ 16
  | .announce, n => n = 7 || n = 9 || n = 11 || n = 13 || n = 15 || n = 17
  | .claim, n => n = 2
  | .renew, n => n = 2
  | .release, n => n = 1
  | .done, n => n = 1
  | .offer, _ => false
  | .grant, _ => false
  | .deny, _ => false
  | .cut, _ => false

/-- The code of a deny reason (11, Tap Frame). -/
def DenyReason.code : DenyReason → Nat
  | .overOffer => 1
  | .noBudget => 2
  | .hostDenied => 3
  | .noDecision => 4
  | .busy => 5
  | .reducing => 6
  | .badTier => 7

/-! ### Frames the part sends -/

/-- The kind of a frame the part sends. -/
def TxFrame.kind : TxFrame → FrameKind
  | .ack _ => .ack
  | .offer _ _ => .offer
  | .grant _ _ _ _ => .grant
  | .deny _ _ _ => .deny
  | .cut _ _ => .cut
  | .note _ _ _ => .note

/-- The payload (11, Tap Frame). -/
def TxFrame.payload : TxFrame → List Byte
  | .ack _ => []
  | .offer k len => [byteOf k, byteOf len]
  | .grant tier units len id => byteOf tier :: le16 units ++ [byteOf len, id]
  | .deny tier reason id => [byteOf tier, byteOf reason.code, id]
  | .cut target deadline => [byteOf target, byteOf deadline]
  | .note _ _ bytes => bytes

/-- The bytes of a frame of this kind, sequence and payload: header, length, payload, CRC (R64). -/
def frameBytes (kind : FrameKind) (seq : BitVec 4) (payload : List Byte) : List Byte :=
  let body := byteOf (16 * kind.code + seq.toNat) :: byteOf payload.length :: payload
  body ++ le16 (crc16 body).toNat

/-- The bytes the part sends for a frame; an ACK carries the sequence it acknowledges in place of its own (R64). -/
def TxFrame.wire (f : TxFrame) (txSeq : BitVec 4) : List Byte :=
  match f with
  | .ack seq => frameBytes .ack seq []
  | f => frameBytes f.kind txSeq f.payload

/-- The line time of a frame with this many payload bytes (R63). -/
def lineTime (payload : Nat) : Nat := Config.frameLead + Config.byteTime * (4 + payload)

/-- The line time of a frame the part sends (R63). -/
def TxFrame.time (f : TxFrame) : Nat := lineTime f.payload.length

/-- The three kinds of cell (R63). -/
inductive Cell where
  | one
  | zero
  | start
deriving DecidableEq, Repr

/-- Microseconds of low at the start of a 10 us cell (R63). -/
def Cell.low : Cell → Nat
  | .one => 2
  | .zero => 6
  | .start => 10

/-- The cells of a frame: preamble, start, bytes least significant bit first (R63). -/
def frameCells (bs : List Byte) : List Cell :=
  List.replicate 20 .one ++ List.replicate 4 .start
    ++ (bs.flatMap bitsOf).map fun b => if b then .one else .zero

/-- The data cell a receiver reads from a low of this many microseconds: below 4 a one, up to 10 a zero (R63). -/
def cellOfLow (us : Nat) : Option Cell :=
  if us = 0 then none else if us < 4 then some .one else if us ≤ 10 then some .zero else none

/-- The part compares the line with what it drives this many microseconds after a frame's begin: from 1 us after the release
of a one or zero cell until the next cell begins, and never in a start cell (R76). -/
def comparedAt (cells : List Cell) (us : Nat) : Bool :=
  match cells[us / 10]? with
  | some .start => false
  | some c => c.low < us % 10
  | none => false

/-- The part pulls the line low this many microseconds after a frame's begin: in the low part of each cell, and not after the
last cell (R62, R63). -/
def pulledAt (cells : List Cell) (us : Nat) : Bool :=
  match cells[us / 10]? with
  | some c => us % 10 < c.low
  | none => false

/-! ### What a receiver makes of the line's low periods (R63, R66)

A low period is given by its microseconds, and a cell period without a low by 0. FRAME_START stands for the start that
`afterStart` finds, and the bytes of FRAME_RECEIVED are those that `heardBytes` collects behind it (entry 44). -/

/-- The low periods of a frame: 20 one-cells, the start as one low of 40 us, and the cells of its bytes (R63). -/
def frameLows (bs : List Byte) : List Nat :=
  List.replicate 20 Cell.one.low ++ [4 * Cell.start.low]
    ++ (bs.flatMap bitsOf).map fun b => if b then Cell.one.low else Cell.zero.low

/-- What follows the first start: a low of 40 us with at least 8 one-cells right before it. `ones` counts the one-cells so far.
A low that is not so followed is noise (R63, R66). -/
def afterStart (ones : Nat) : List Nat → Option (List Nat)
  | [] => none
  | us :: rest =>
    if us = 4 * Cell.start.low && 8 ≤ ones then some rest
    else afterStart (if cellOfLow us = some .one then ones + 1 else 0) rest

/-- The bits of the data cells, up to the first cell that is neither a one nor a zero (R63, R66). -/
def cellBits : List Nat → List Bool
  | [] => []
  | us :: rest =>
    match cellOfLow us with
    | some c => (c == .one) :: cellBits rest
    | none => []

/-- Bits as bytes, least significant bit first; what is left of an unfinished byte is dropped (R63). -/
def packBytes : List Bool → List Byte
  | b0 :: b1 :: b2 :: b3 :: b4 :: b5 :: b6 :: b7 :: rest =>
    byteOf (([b7, b6, b5, b4, b3, b2, b1, b0].foldl fun n b => 2 * n + b.toNat) 0) :: packBytes rest
  | _ => []

/-- A reception ends with its second CRC byte, or at once at a length byte above 18 (R66). -/
def endReception (bs : List Byte) : List Byte :=
  let n := (byteAt bs 1).toNat
  bs.take (if n > 18 then 2 else 4 + n)

/-- The bytes collected behind the first start, if there is one (R63, R66). -/
def heardBytes (lows : List Nat) : Option (List Byte) :=
  (afterStart 0 lows).map fun rest => endReception (packBytes (cellBits rest))

/-! ### Receptions -/

/-- What a reception holds when it ends (R66, R67): a cell that is neither a one nor a zero ended it; a length byte above 18
ended it; it is complete and its CRC fails; it is complete with a good CRC. -/
inductive Reception where
  | broken (payload : List Byte)
  | overLength
  | badCrc (payload : List Byte)
  | whole (code : Nat) (seq : BitVec 4) (payload : List Byte)
deriving DecidableEq, Repr

/-- The reception whose collected bytes are these. One that ended before its last CRC byte is a broken frame
(entry 23). -/
def readReception (bs : List Byte) : Reception :=
  match bs with
  | h :: l :: rest =>
    let n := l.toNat
    let payload := rest.take n
    if n > 18 then .overLength
    else if rest.length < n + 2 then .broken payload
    else if word16At rest n = crc16 (h :: l :: payload) then
      .whole (h.toNat / 16) (BitVec.ofNat 4 h.toNat) payload
    else .badCrc payload
  | _ => .broken []

/-- The good frame of a code and payload length, if its form is correct (R68). -/
def goodKind (code length : Nat) : Option FrameKind :=
  match FrameKind.ofCode code with
  | some k => if k.accepted length then some k else none
  | none => none

end Sys2Proof.Machine
end

