-- ==== Sys2Proof/Decode.lean ====
section
/-! DEFINITION. The commands that bits spell: those of a command ring entry (11, Command Entry). No row of
spec/opcode_table.json gives bits, so a table word spells none. -/

namespace Sys2Proof

open Sys2Proof.Machine

/-- The command code of an entry (11, Command Entry, byte 0). -/
def entryCode (e : List Byte) : Byte := byteAt e 0
/-- The port byte of an entry (byte 1). -/
def entryPort (e : List Byte) : Byte := byteAt e 1
/-- The tag of an entry (bytes 2 and 3). -/
def entryTag (e : List Byte) : Word16 := word16At e 2

/-- The policy fields of a CONFIG_PORT entry (bytes 4 to 14). -/
def entryPolicy (e : List Byte) : PolicyFields where
  priority := byteAt e 4
  ceiling := word16At e 5
  autoGrant := byteAt e 7
  leaseLength := byteAt e 8
  cutDeadline := byteAt e 9
  decisionWindow := byteAt e 10
  waitLimit := byteAt e 11
  preemptible := byteAt e 12
  retryLimit := byteAt e 13
  faultCooldown := byteAt e 14

/-- Sixteen bytes of an entry from a byte on. -/
def entryBytes (e : List Byte) (i : Nat) : List Byte := (List.range 16).map fun k => byteAt e (i + k)

/-- The host command of a 32-byte entry; codes 0x00 and 0x0F to 0xFF are unknown (R141). -/
def decodeEntry (e : List Byte) : Option Instr :=
  let tag := entryTag e
  let port := entryPort e
  match (entryCode e).toNat with
  | 0x01 => some (.configPort tag port (entryPolicy e))
  | 0x02 => some (.portEnable tag port)
  | 0x03 => some (.portDisable tag port)
  | 0x04 => some (.setBudget tag (word16At e 4) (byteAt e 6))
  | 0x05 => some (.decide tag port (word16At e 4) (byteAt e 6) (byteAt e 7))
  | 0x06 => some (.revoke tag port (byteAt e 4) (word16At e 6))
  | 0x07 => some (.lineClear tag port)
  | 0x08 => some (.relay tag port (byteAt e 4) (entryBytes e 5))
  | 0x09 => some (.queryPort tag port (byteAt e 4))
  | 0x0A => some (.queryPool tag)
  | 0x0B => some (.queryLink tag port (byteAt e 4))
  | 0x0C => some (.linkTest tag port (byteAt e 4) (byteAt e 5) (entryBytes e 6))
  | 0x0D => some (.sync tag)
  | 0x0E => some (.abort tag (word16At e 4))
  | _ => none

/-- The command a word spells by the bits of spec/opcode_table.json: the table gives no row bits, so none. -/
def decodeTableWord (_nbits _w : Nat) : Option Instr := none

end Sys2Proof
end

