-- ==== Sys2Proof/Machine/Report.lean ====
section
/-! DEFINITION. The 32 bytes of a report (R179) and the codes they use (R146; 11, Codes used in reports). -/

namespace Sys2Proof.Machine

open Sys2Proof

/-- 0 or 1. -/
def bit (b : Bool) : Nat := if b then 1 else 0

/-- The status code (R146). -/
def Status.code : Status → Nat
  | .ok => 0
  | .forced => 1
  | .badCommand => 2
  | .badPort => 3
  | .badParam => 4
  | .badState => 5
  | .noClaim => 6
  | .queueFull => 7
  | .aborted => 8
  | .notFound => 9
  | .superseded => 10
  | .detached => 11
  | .faulted => 12
  | .cleared => 13
  | .withdrawn => 14
  | .linkLost => 15
  | .linkFault => 16

/-- The port state code. -/
def PortState.code : PortState → Nat
  | .off => 0
  | .vacant => 1
  | .sensing => 2
  | .powering => 3
  | .starved => 4
  | .powered => 5
  | .claiming => 6
  | .cutting => 7
  | .clearing => 8
  | .faulted => 9

/-- The class code. -/
def PowerClass.code : PowerClass → Nat
  | .none => 0
  | .one => 1
  | .two => 2
  | .three => 3

/-- The claim phase code; 0 stands for no claim. -/
def ClaimPhase.code : ClaimPhase → Nat
  | .awaitHost => 1
  | .awaitBudget => 2
  | .granting => 3

/-- The cut cause code. -/
def CutCause.code : CutCause → Nat
  | .revoke => 1
  | .expiry => 2
  | .ceiling => 3
  | .preempt => 4
  | .shrink => 5

/-- The line clear cause code. -/
def ClearCause.code : ClearCause → Nat
  | .received => 1
  | .linkLost => 2
  | .overdraw => 3
  | .host => 4

/-- The notice kind code. -/
def Notice.kindCode : Notice → Nat
  | .attach _ => 1
  | .detach => 2
  | .starved _ _ => 3
  | .announced _ _ _ => 4
  | .claim _ _ _ _ _ => 5
  | .claimDenied _ _ => 6
  | .leaseChanged _ _ => 7
  | .leaseLapsed _ _ => 8
  | .cutForced _ _ _ => 9
  | .fault _ => 10
  | .lockout => 11
  | .lineClear _ => 12
  | .linkLost _ => 13
  | .note _ => 14

/-- The notice payload, from byte 8 (11, Notice payloads). -/
def Notice.payload : Notice → List Byte
  | .attach cls => [byteOf cls.code]
  | .detach => []
  | .starved cls floor => [byteOf cls.code, byteOf floor]
  | .announced id k tiers => le32 id.toNat ++ [byteOf tiers.length, byteOf k] ++ tiers.flatMap le16
  | .claim tag tier units mcid window =>
    le16 tag.toNat ++ [byteOf tier] ++ le16 units ++ [mcid] ++ le16 window
  | .claimDenied tag reason => le16 tag.toNat ++ [byteOf reason.code]
  | .leaseChanged tier units => byteOf tier :: le16 units
  | .leaseLapsed tier units => byteOf tier :: le16 units
  | .cutForced old target cause => [byteOf old, byteOf target, byteOf cause.code]
  | .fault count => [byteOf count]
  | .lockout => []
  | .lineClear cause => [byteOf cause.code]
  | .linkLost kind => [byteOf kind.code]
  | .note bytes => byteOf bytes.length :: bytes

/-- A list filled with zero bytes, or cut, to a length: QE writes every byte of an entry (R178). -/
def padTo (n : Nat) (bs : List Byte) : List Byte := (bs ++ List.replicate n 0#8).take n

/-- The thirteen counters as a link snapshot holds them (R179). -/
def Counters.bytes (c : Counters) : List Byte :=
  le16 c.framesSent ++ le16 c.goodFrames ++ le16 c.crcErrors ++ le16 c.malformed ++ le16 c.duplicates
    ++ le16 c.retries ++ le16 c.collisions ++ le16 c.linkLosses ++ le16 c.clearsSent ++ le16 c.clearsReceived
    ++ le16 c.protocolErrors ++ le16 c.strikesTotal ++ le16 c.notesDropped

/-- The 32 bytes of a report written with this sequence (R179). -/
def Report.encode (r : Report) (seq : Word16) : List Byte :=
  match r with
  | .completion tag code port status result =>
    padTo 32 ([byteOf (1 + 4 * status.code), port] ++ le16 seq.toNat ++ le16 tag.toNat ++ [code, 0#8] ++ result)
  | .linkSnapshot tag port clear counters =>
    padTo 32 ([byteOf 0x81, byteOf (port.val + 8 * bit clear + 0xB0)] ++ le16 seq.toNat ++ le16 tag.toNat
      ++ counters.bytes)
  | .notice port content =>
    padTo 32 ([2#8, byteOf port.val] ++ le16 seq.toNat ++ [byteOf content.kindCode, 0#8, 0#8, 0#8]
      ++ content.payload)
  | .summary port kinds dropped state =>
    padTo 32 ([3#8, byteOf port.val] ++ le16 seq.toNat ++ le16 kinds.toNat ++ le16 dropped ++ [byteOf state.code])

/-- The 32 bits of a limit write (11, Limit Write): port, limit, 0b0110, and the ones' complement of those 16. -/
def Transfer.word (t : Transfer) : Word32 :=
  let low : Word16 := BitVec.ofNat 16 (t.port.val + 8 * t.write.value + 4096 * 6)
  (~~~ low) ++ low

end Sys2Proof.Machine
end

