-- ==== Sys2Proof/Machine/Operands.lean ====
section
/-! DEFINITION. What operands mean: policy fields of a command (R148), the durations a policy gives, tiers and their units
(R6, R10, R93), the codes of parameters (11, Command Entry), presence bands (R40). -/

namespace Sys2Proof

/-- The class of a class band (R43). -/
def Band.cls : Band → Machine.PowerClass
  | .absent => .none
  | .c1 => .one
  | .c2 => .two
  | .c3 => .three
  | .low => .none

/-- Whether the input lies in a class band: "present" (R40). -/
def Band.present : Band → Bool
  | .absent => false
  | .c1 => true
  | .c2 => true
  | .c3 => true
  | .low => false

/-! ### Presence bands from the voltage (R40) -/

/-- One threshold's comparison with hysteresis, in thousandths of VIO: above, below, or as it was. DESIGN CHOICE: an input that
lies exactly the margin past the threshold has not passed it by that margin (entry 46). -/
def pastThreshold (threshold : Nat) (wasAbove : Bool) (v : Nat) : Bool :=
  if threshold + 20 < v then true else if v + 20 < threshold then false else wasAbove

/-- How many of the four thresholds a band lies above. -/
def Band.rank : Band → Nat
  | .low => 0
  | .c3 => 1
  | .c2 => 2
  | .c1 => 3
  | .absent => 4

/-- The band that follows a band when PSNS is at a voltage in thousandths of VIO (R40). PRESENCE_BAND_CHANGE brings
its result; DEDUCED: the hysteresis of 0.02 VIO lies on each side of a threshold (entry 29). -/
def Band.follow (b : Band) (v : Nat) : Band :=
  let above (i : Nat) (threshold : Nat) : Bool := pastThreshold threshold (i < b.rank) v
  if above 3 800 then .absent
  else if above 2 600 then .c1
  else if above 1 400 then .c2
  else if above 0 200 then .c3
  else .low

/-! ### The level of a tap line from its voltage (R62) -/

/-- Whether TAP is read as low at a voltage in millivolts: below the input low threshold it is, above the input high threshold
it is not, and between the two the last reading stays (R62). TAP_LEVEL_CHANGE brings a reading that differs from the last
one. DEDUCED: the two thresholds are the input voltages of 00_scope.md (entry 47). -/
def readsLow (wasLow : Bool) (millivolts : Int) : Bool :=
  if millivolts < Config.inputLow then true else if Config.inputHigh < millivolts then false else wasLow

end Sys2Proof

namespace Sys2Proof.Machine

open Sys2Proof

/-- A flag byte: 0 no, 1 yes, anything else out of range (11, Command Entry). -/
def flagOf (b : Byte) : Option Bool :=
  if b = 0 then some false else if b = 1 then some true else none

/-- The policy ten fields stand for, if every field is in its range (R148). -/
def policyOf (f : PolicyFields) : Option Policy :=
  match flagOf f.autoGrant, flagOf f.preemptible with
  | some auto, some preempt =>
    if f.priority.toNat ≤ 3 ∧ f.ceiling.toNat ≤ Config.maxLevel ∧ 1 ≤ f.leaseLength.toNat
        ∧ 1 ≤ f.cutDeadline.toNat ∧ 1 ≤ f.decisionWindow.toNat ∧ f.retryLimit.toNat ≤ 3
        ∧ 1 ≤ f.faultCooldown.toNat then
      some
        { priority := f.priority.toNat, ceiling := f.ceiling.toNat, autoGrant := auto
          leaseLength := f.leaseLength.toNat, cutDeadline := f.cutDeadline.toNat
          decisionWindow := f.decisionWindow.toNat, waitLimit := f.waitLimit.toNat, preemptible := preempt
          retryLimit := f.retryLimit.toNat, faultCooldown := f.faultCooldown.toNat }
    else none
  | _, _ => none

/-- The cut deadline of a policy, in microseconds (R7). -/
def Policy.cutTime (p : Policy) : Nat := p.cutDeadline * 10 * Config.ms
/-- The decision window of a policy, in microseconds (R97). -/
def Policy.windowTime (p : Policy) : Nat := p.decisionWindow * 10 * Config.ms
/-- The fault cooldown of a policy, in microseconds (R59). -/
def Policy.cooldownTime (p : Policy) : Nat := p.faultCooldown * 100 * Config.ms
/-- The wait-limit timer a claim starts with; a wait limit of 0 gives none (R37). -/
def Policy.waitTimer (p : Policy) : Option Nat :=
  if p.waitLimit = 0 then none else some (p.waitLimit * 100 * Config.ms)

/-- The floor of a class (R3). -/
def PowerClass.floor : PowerClass → Nat
  | .none => 0
  | .one => 4
  | .two => 10
  | .three => 24

/-- The units of a tier in a module record, 0 where there is none. -/
def ModuleRec.units (m : ModuleRec) (tier : Nat) : Nat := if tier = 0 then 0 else m.tiers.getD (tier - 1) 0

/-- The units of a tier of this port: the floor for tier 0, else the module record's (R6). -/
def Entry.unitsOf (e : Entry) (tier : Nat) : Nat :=
  if tier = 0 then e.floor
  else match e.module with
    | some m => m.units tier
    | none => 0

/-- The number of tiers of this port's module. -/
def Entry.tierCount (e : Entry) : Nat :=
  match e.module with
  | some m => m.tiers.length
  | none => 0

/-- How many tiers are within a level; tiers ascend, so they are tiers 1 to this (R93). -/
def tiersWithin (level : Nat) (tiers : List Nat) : Nat := (tiers.filter (· ≤ level)).length

/-- The permitted tier count of an OFFER, and the highest tier within the ceiling (R93, R122). -/
def Entry.permitted (e : Entry) : Nat :=
  match e.module with
  | some m => tiersWithin e.policy.ceiling m.tiers
  | none => 0

/-- Whether a port is in CLAIMING phase GRANTING. -/
def Entry.granting (e : Entry) : Bool :=
  match e.claim with
  | some c => e.state = .claiming && c.phase = .granting
  | none => false

/-- Whether a port is in CLAIMING phase AWAIT_HOST or AWAIT_BUDGET. -/
def Entry.awaiting (e : Entry) : Bool :=
  match e.claim with
  | some c => e.state = .claiming && c.phase != .granting
  | none => false

/-- The tier an open claim stands on: the tier claimed in AWAIT_HOST, the granted tier after that (R101, R124). -/
def ClaimRec.standsOn (c : ClaimRec) : Nat := c.granted.getD c.tierClaimed

/-- The tier units of an announcement's payload, two bytes each (11, Tap Frame). -/
def announcedTiers (payload : List Byte) : Nat → List Nat
  | 0 => []
  | n + 1 => announcedTiers payload n ++ [(word16At payload (5 + 2 * n)).toNat]

/-- Strictly ascending from above a bound, each at most 400 BU (R87). -/
def ascendingFrom (bound : Nat) : List Nat → Bool
  | [] => true
  | t :: rest => decide (bound < t ∧ t ≤ Config.maxLevel) && ascendingFrom t rest

/-- The module record a valid announcement gives on a port with this floor; none where it is invalid (R87). -/
def readAnnounce (floor : Nat) (payload : List Byte) : Option ModuleRec :=
  let n := (byteAt payload 4).toNat
  let tiers := announcedTiers payload n
  if 1 ≤ n ∧ n ≤ 6 ∧ payload.length = 5 + 2 * n ∧ ascendingFrom floor tiers then
    some { id := word32At payload 0, tiers := tiers }
  else none

/-- The verdicts of a DECIDE (11, Command Entry). -/
inductive Verdict where
  | grant
  | deny
deriving DecidableEq, Repr

/-- Verdict byte: 1 GRANT, 2 DENY. -/
def verdictOf (b : Byte) : Option Verdict :=
  if b = 1 then some .grant else if b = 2 then some .deny else none

/-- Mode byte of LINK_TEST: 0 INTERNAL, 1 EXTERNAL. -/
def testModeOf (b : Byte) : Option TestMode :=
  if b = 0 then some .internal else if b = 1 then some .external else none

/-- A deadline override: 0 for none, else 10..2550 ms in steps of 10 ms (R124). -/
def overrideOk (ms : Nat) : Bool := ms = 0 || (10 ≤ ms && ms ≤ 2550 && ms % 10 = 0)

/-- The port of a port byte, if it exists (R145). -/
def portOf (b : Byte) : Option PortNo := if h : b.toNat < 8 then some ⟨b.toNat, h⟩ else none

end Sys2Proof.Machine
end

