-- ==== Sys2Proof/Machine/Flags.lean ====
section
/-! DEFINITION. Flags and status words the host reads: the register window (R159, R178; 11, Register Window), the INT output
(R171), and the flag bytes of the snapshots (11, QUERY_PORT sections). -/

namespace Sys2Proof.Machine

open Sys2Proof

/-- The engine state's code in STATUS bits 1:0. -/
def EngineState.code : EngineState → Nat
  | .stopped => 0
  | .running => 1
  | .halted => 2

/-- The cause's code in STATUS bits 6:4. -/
def HaltCause.code : HaltCause → Nat
  | .none => 0
  | .config => 1
  | .cmdIndex => 2
  | .rptIndex => 3
  | .fetchBus => 4
  | .writeBus => 5

/-- CTRL as read: 0 ENABLE, 1 SOFT_RESET (reads 0), 2 REPORT_IE, 3 ERROR_IE. -/
def Qe.ctrl (q : Qe) : Word32 := BitVec.ofNat 32 (bit q.enable + 4 * bit q.reportIe + 8 * bit q.errorIe)

/-- STATUS as read: 1:0 engine state, 6:4 cause. -/
def Qe.status (q : Qe) : Word32 := BitVec.ofNat 32 (q.engine.code + 16 * q.cause.code)

/-- INT as read: 0 REPORT, 1 ERROR. -/
def Qe.int (q : Qe) : Word32 := BitVec.ofNat 32 (bit q.intReport + 2 * bit q.intError)

/-- The register at a word offset of the window; offsets 0x30 to 0x3C read 0 (R178). -/
def Qe.readReg (q : Qe) (offset : Nat) : Word32 :=
  match offset with
  | 0x00 => Config.ident
  | 0x04 => q.ctrl
  | 0x08 => q.status
  | 0x0C => q.int
  | 0x10 => q.cmdBase
  | 0x14 => q.cmdSize
  | 0x18 => q.cmdTail
  | 0x1C => q.cmdHead
  | 0x20 => q.rptBase
  | 0x24 => q.rptSize
  | 0x28 => q.rptHead
  | 0x2C => q.rptTail
  | _ => 0

/-- A byte read of the window: a narrower read returns the addressed bytes of the register (R178). -/
def Qe.readByte (q : Qe) (offset : Nat) : Byte :=
  (q.readReg (offset - offset % 4)).extractLsb' (8 * (offset % 4)) 8

/-- The value the host reads from a register of the window (R159). -/
def State.readReg (s : State) (offset : Nat) : Word32 := s.qe.readReg offset

/-- The INT output (R171). -/
def State.intPin (s : State) : Bool := (s.qe.intReport && s.qe.reportIe) || (s.qe.intError && s.qe.errorIe)

/-- A size register the enable accepts: a power of two from 16 to 1024 (R160). -/
def sizeOk (size : Word32) : Bool := [16, 32, 64, 128, 256, 512, 1024].contains size.toNat

/-- A ring the enable accepts: its base a multiple of 32 and its last byte within the 32-bit address space (R160). -/
def ringOk (base size : Word32) : Bool :=
  sizeOk size && base.toNat % 32 = 0 && base.toNat + 32 * size.toNat - 1 < 4294967296

/-- Bits of a flag byte, least significant first. -/
def flagByte : List Bool → Nat
  | [] => 0
  | b :: rest => bit b + 2 * flagByte rest

end Sys2Proof.Machine
end

