-- ==== Sys2Proof/Machine/Ops.lean ====
section
/-! DEFINITION. The named operations over the parts of State: reading and updating one port's share of a block, the link
counters (R172), reports, completions and open slots (R143, R144, R155, R164, R166 to R168), and the start of ring
accesses (R163, R165). -/

namespace Sys2Proof.Machine

open Sys2Proof

/-! ### One port's share of a block -/

/-- The lease table entry of a port (R1). -/
def State.entry (s : State) (p : PortNo) : Entry := s.entries[p]
/-- The Sense Unit of a port. -/
def State.sense (s : State) (p : PortNo) : SenseUnit := s.senses[p]
/-- PSI's state for a port (R45). -/
def State.power (s : State) (p : PortNo) : PsiPort := s.psi.ports[p]
/-- The Tap Link Engine of a port. -/
def State.tle (s : State) (p : PortNo) : Tle := s.tles[p]
/-- BP's grant order record of a port (R22). -/
def State.grantRecord (s : State) (p : PortNo) : Option Nat := s.pool.grantOrder[p]
/-- QE's summary of a port (R168). -/
def State.summary (s : State) (p : PortNo) : Summary := s.qe.summaries[p]
/-- The applied level of a port (R5). -/
def State.applied (s : State) (p : PortNo) : Nat := (s.power p).applied

/-- Update of one lease table entry. -/
def State.modEntry (s : State) (p : PortNo) (f : Entry → Entry) : State :=
  { s with entries := s.entries.set p (f s.entries[p]) }
/-- Update of one Sense Unit. -/
def State.modSense (s : State) (p : PortNo) (f : SenseUnit → SenseUnit) : State :=
  { s with senses := s.senses.set p (f s.senses[p]) }
/-- Update of PSI's state for one port. -/
def State.modPower (s : State) (p : PortNo) (f : PsiPort → PsiPort) : State :=
  { s with psi := { s.psi with ports := s.psi.ports.set p (f s.psi.ports[p]) } }
/-- Update of one Tap Link Engine. -/
def State.modTle (s : State) (p : PortNo) (f : Tle → Tle) : State :=
  { s with tles := s.tles.set p (f s.tles[p]) }
/-- Update of the bus side of PSI. -/
def State.modPsi (s : State) (f : Psi → Psi) : State := { s with psi := f s.psi }
/-- Update of the pool. -/
def State.modPool (s : State) (f : Pool → Pool) : State := { s with pool := f s.pool }
/-- Update of QE. -/
def State.modQe (s : State) (f : Qe → Qe) : State := { s with qe := f s.qe }

/-! ### Link counters (R172, R173) -/

/-- A counter rises by 1 and stays at 65535 (R172). -/
def bump (n : Nat) : Nat := if n < Config.counterMax then n + 1 else n

/-- An update of a port's link counters. -/
def State.count (s : State) (p : PortNo) (f : Counters → Counters) : State :=
  s.modTle p fun t => { t with counters := f t.counters }

/-- Protocol errors of a port rise by 1 (R173). -/
def State.protocolError (s : State) (p : PortNo) : State :=
  s.count p fun c => { c with protocolErrors := bump c.protocolErrors }

/-! ### Reports (R166 to R168) -/

/-- Backlog occupancy plus open commands (R164). -/
def Qe.load (q : Qe) : Nat := q.backlog.length + q.slots.length

/-- A report is appended at the back of the backlog (R166). -/
def Qe.append (q : Qe) (r : Report) : Qe := { q with backlog := q.backlog ++ [r] }

/-- A summary is empty when its set of kinds is empty (R168). -/
def Summary.isEmpty (m : Summary) : Bool := m.kinds = 0#16

/-- A notice merged into a summary (R167). -/
def Summary.merge (m : Summary) (n : Notice) : Summary where
  kinds := m.kinds ||| BitVec.ofNat 16 (2 ^ n.kindCode)
  notesDropped :=
    match n with
    | .note _ => bump m.notesDropped
    | _ => m.notesDropped

/-- A notice merged into its port's summary; a NOTE adds to the port's notes-dropped counter too (R167). -/
def State.mergeNotice (s : State) (p : PortNo) (n : Notice) : State :=
  let s := s.modQe fun q => { q with summaries := q.summaries.set p (q.summaries[p].merge n) }
  match n with
  | .note _ => s.count p fun c => { c with notesDropped := bump c.notesDropped }
  | _ => s

/-- A notice request (R167): merged where the port's summary is open, else appended where there is room, else merged. -/
def State.notice (s : State) (p : PortNo) (n : Notice) : State :=
  if (s.summary p).isEmpty && decide (s.qe.load + bit s.qe.reserved < Config.backlogSize) then
    s.modQe fun q => q.append (.notice p n)
  else s.mergeNotice p n

/-- The lowest-numbered port whose summary waits (R168). -/
def State.waitingSummary (s : State) : Option PortNo := allPorts.find? fun p => !(s.summary p).isEmpty

/-- One summary is drained if one waits and there is room (R168). -/
def State.drainSummary (s : State) : State :=
  match s.waitingSummary with
  | some p =>
    if s.qe.load < Config.backlogSize then
      s.modQe fun q =>
        { q with
          backlog := q.backlog ++
            [.summary p q.summaries[p].kinds q.summaries[p].notesDropped (s.entry p).state]
          summaries := q.summaries.set p Summary.empty }
    else s
  | none => s

/-! ### Open slots and completions (R143, R144, R155, R166) -/

/-- The completion of another command leaves a SYNC's set (R155). -/
def Slot.relieve (sl : Slot) (order : Nat) : Slot :=
  match sl.kind with
  | .sync waitsFor count => { sl with kind := .sync (waitsFor.filter (· != order)) count }
  | _ => sl

/-- A SYNC whose set is empty (R155). -/
def Slot.syncDone (sl : Slot) : Bool :=
  match sl.kind with
  | .sync waitsFor _ => waitsFor.isEmpty
  | _ => false

/-- The count a SYNC's result carries (R155). -/
def Slot.syncCount (sl : Slot) : Nat :=
  match sl.kind with
  | .sync _ count => count
  | _ => 0

/-- The completion of an open command: its slot becomes a backlog entry and every SYNC is relieved of it (R144, R155). -/
def Qe.closeSlot (q : Qe) (sl : Slot) (status : Status) (result : List Byte) : Qe :=
  { q with
    slots := (q.slots.filter fun x => x.order != sl.order).map fun x => x.relieve sl.order
    backlog := q.backlog ++ [.completion sl.tag sl.code sl.port status result] }

/-- SYNCs whose set has become empty complete OK, each after the completion that emptied it (R155). DESIGN CHOICE: at
once after it, ahead of what else the event completes (entry 40). -/
def Qe.closeSyncs : Nat → Qe → Qe
  | 0, q => q
  | n + 1, q =>
    match q.slots.find? Slot.syncDone with
    | some sl => (q.closeSlot sl .ok [byteOf sl.syncCount]).closeSyncs n
    | none => q
termination_by structural n => n

/-- Completion of the open command of an order number; where no such command is open, nothing (R144). -/
def Qe.complete (q : Qe) (order : Nat) (status : Status) (result : List Byte) : Qe :=
  match q.slots.find? fun sl => sl.order == order with
  | some sl => (q.closeSlot sl status result).closeSyncs Config.slotCount
  | none => q

/-- Completion of an open command. -/
def State.complete (s : State) (order : Nat) (status : Status) (result : List Byte) : State :=
  s.modQe fun q => q.complete order status result

/-- The codes of the commands that may be long (08, The Command Set). -/
def mayBeLong (code : Byte) : Bool :=
  [0x03#8, 0x04#8, 0x06#8, 0x07#8, 0x08#8, 0x0C#8, 0x0D#8].contains code

/-- The admission test for a command of this code (R164). -/
def Qe.admits (q : Qe) (code : Byte) : Bool :=
  decide (q.load + 1 ≤ Config.backlogSize) && (!mayBeLong code || decide (q.slots.length < Config.slotCount))

/-- A command of a code that may be long occupies a slot from its taking (R143). -/
def State.openSlot (s : State) (tag : Word16) (code port : Byte) (bound : Option PortNo) (kind : OpenKind) : State :=
  s.modQe fun q =>
    { q with
      slots := q.slots ++ [{ order := q.nextOrder, tag := tag, code := code, port := port, bound := bound, kind := kind }]
      nextOrder := q.nextOrder + 1 }

/-- A command that holds no slot begins: its completion's room is reserved (R164, R167). -/
def State.begin (s : State) : State := s.modQe fun q => { q with reserved := true }

/-- The completion of a command that holds no slot uses the reserved room (R166). -/
def State.answer (s : State) (r : Report) : State :=
  s.modQe fun q => { q with backlog := q.backlog ++ [r], reserved := false }

/-! ### Ring accesses (R163, R165) -/

/-- The index after an index of a ring of this size (R163, R165). -/
def nextIndex (i size : Word32) : Word32 := if i + 1 = size then 0 else i + 1

/-- The report ring is full (R165). -/
def Qe.rptFull (q : Qe) : Bool := nextIndex q.rptTail q.rptSize = q.rptHead

/-- Where entry i of a ring lies (09, opening). -/
def entryAddress (base i : Word32) : Word32 := base + 32 * i

/-- QE begins to read the entry at CMD_HEAD, where it is not reading yet (R163). -/
def Qe.startRead (q : Qe) : Qe :=
  if q.fetching then q else { q with fetching := true, lastRead := some (entryAddress q.cmdBase q.cmdHead) }

/-- QE begins the ring read and the report write whose conditions hold (R163, R165). -/
def Qe.startAccesses (q : Qe) : Qe :=
  let q := if q.engine = .running && q.cmdHead != q.cmdTail && q.held.isNone then q.startRead else q
  if q.engine = .running && !q.backlog.isEmpty && !q.rptFull then { q with writing := true } else q

end Sys2Proof.Machine
end

