-- ==== Sys2Proof/Machine/Psi.lean ====
section
/-! DEFINITION. The Power Stage Interface's operations: the limit bus service list (R46), write requests, and the teardown
write (R49). -/

namespace Sys2Proof.Machine

open Sys2Proof

/-- An idle bus begins the first write of the service list; the port leaves the list (R46). -/
def State.startTransfer (s : State) : State :=
  match s.psi.transfer, s.psi.service with
  | none, p :: rest =>
    match (s.power p).pendingWrite with
    | some w =>
      (s.modPower p fun x => { x with pendingWrite := none }).modPsi fun b =>
        { b with service := rest, transfer := some { port := p, write := w, void := false, left := Config.limitWriteTime } }
    | none => s.modPsi fun b => { b with service := rest }
  | _, _ => s

/-- LC requests a limit write: a pending write of the port is replaced in place, else the port joins the end of the
service list (R46). -/
def State.requestWrite (s : State) (p : PortNo) (value : Nat) (dir : WriteDir) : State :=
  let joins := (s.power p).pendingWrite.isNone
  let s := s.modPower p fun x => { x with pendingWrite := some { value := value, dir := dir } }
  let s := if joins then s.modPsi fun b => { b with service := b.service ++ [p] } else s
  s.startTransfer

/-- The write in transfer, if it is this port's. -/
def Psi.transferOf (b : Psi) (p : PortNo) : Option Transfer :=
  match b.transfer with
  | some t => if t.port = p then some t else none
  | none => none

/-- A teardown finds nothing to do: PEN is off, and the port's pending write and write in transfer, if it has either,
are writes of 0 (R49). -/
def State.noPower (s : State) (p : PortNo) : Bool :=
  !(s.power p).pen
    && (match (s.power p).pendingWrite with
        | some w => w.value = 0
        | none => true)
    && (match s.psi.transferOf p with
        | some t => t.write.value = 0
        | none => true)

/-- The teardown write (R49): PEN off and the applied level 0 at once, the settle stopped, a write in transfer kept from
being made, and a write of 0 placed. -/
def State.teardownWrite (s : State) (p : PortNo) : State :=
  if s.noPower p then s
  else
    let s := s.modPower p fun x => { x with pen := false, applied := 0, settle := none }
    let s := s.modPsi fun b =>
      { b with transfer := b.transfer.map fun t => if t.port = p then { t with void := true } else t }
    s.requestWrite p 0 .teardown

end Sys2Proof.Machine
end

