-- ==== Sys2Proof/Machine/Link.lean ====
section
/-! DEFINITION. The Tap Link Engine's operations: placing frames under the bounds of R72, owed ACKs (R69), what may be sent
next (R73), where an abandoned frame goes (R77), line clears (R82) and the flush of a teardown (R15 step 4, R65). -/

namespace Sys2Proof.Machine

open Sys2Proof

/-! ### The transmit queue (R71, R72) -/

/-- A fresh frame, with no collision counted (R65). -/
def TxFrame.item (f : TxFrame) : TxItem := { frame := f, collisions := 0 }

/-- A GRANT or a DENY. -/
def TxFrame.isAnswer (f : TxFrame) : Bool := f.kind = .grant || f.kind = .deny

/-- A DENY with reason BUSY (R94). -/
def TxFrame.isBusy : TxFrame → Bool
  | .deny _ .busy _ => true
  | _ => false

/-- The waiting frames of a kind. -/
def queuedOf (q : List TxItem) (k : FrameKind) : Nat := (q.filter fun x => x.frame.kind = k).length

/-- GRANT and DENY frames waiting (R72). -/
def answersQueued (q : List TxItem) : Nat := (q.filter fun x => x.frame.isAnswer).length

/-- The last waiting frame that passes a test, the most recently queued, replaced in place (R72). DESIGN CHOICE: where a
collision has returned an OFFER, CUT, GRANT or DENY to a queue whose newer frames fill the bound of its kind, all of them
stay, and a further one replaces the newest (entry 38). -/
def replaceLast (is : TxFrame → Bool) (f : TxFrame) : List TxItem → List TxItem
  | [] => []
  | x :: rest =>
    if is x.frame && !(rest.any fun y => is y.frame) then f.item :: rest else x :: replaceLast is f rest

/-- LC places a frame at the back of a port's queue, under the bounds of R72. -/
def State.queueFrame (s : State) (p : PortNo) (f : TxFrame) : State :=
  let q := (s.tle p).queue
  match f.kind with
  | .offer =>
    s.modTle p fun t =>
      { t with queue := if queuedOf q .offer = 0 then q ++ [f.item] else replaceLast (·.kind = .offer) f q }
  | .cut =>
    s.modTle p fun t => { t with queue := if queuedOf q .cut = 0 then q ++ [f.item] else replaceLast (·.kind = .cut) f q }
  | .grant | .deny =>
    if answersQueued q < 2 then s.modTle p fun t => { t with queue := q ++ [f.item] }
    else (s.modTle p fun t => { t with queue := replaceLast TxFrame.isAnswer f q }).protocolError p
  | _ => s.modTle p fun t => { t with queue := q ++ [f.item] }

/-- The ACK a good frame owes goes to the front, or replaces the waiting one in place (R69, R72). -/
def Tle.oweAck (t : Tle) (seq : BitVec 4) : Tle :=
  { t with
    queue :=
      if queuedOf t.queue .ack = 0 then (TxFrame.ack seq).item :: t.queue
      else replaceLast (·.kind = .ack) (.ack seq) t.queue }

/-- A frame returned to the front of the queue, behind any ACK (R71, R77). -/
def returnFrame (x : TxItem) (q : List TxItem) : List TxItem :=
  match q with
  | a :: rest => if a.frame.kind = .ack then a :: x :: rest else x :: q
  | [] => [x]

/-- NOTE frames of RELAY commands the engine holds: waiting, on the line first sent, or awaiting acknowledgment (R153). -/
def Tle.notesHeld (t : Tle) : Nat :=
  queuedOf t.queue .note
    + (match t.line with
       | some (.frame x _ false _) => bit (x.frame.kind = .note)
       | _ => 0)
    + (match t.awaiting with
       | some a => bit (a.item.frame.kind = .note)
       | none => 0)

/-- A RELAY's NOTE that has not started leaves the queue (R71, R157). -/
def Tle.dropNote (t : Tle) (order : Nat) : Tle :=
  { t with
    queue := t.queue.filter fun x =>
      match x.frame with
      | .note o _ _ => o != order
      | _ => true }

/-! ### Sending (R73) -/

/-- The frame that is eligible, and whether it is a retransmission: an ACK at the front, else the frame awaiting
acknowledgment if its retransmission is ordered, else the front if nothing awaits (R73). -/
def Tle.eligible (t : Tle) : Option (TxItem × Bool) :=
  match t.queue with
  | x :: _ =>
    if x.frame.kind = .ack then some (x, false)
    else match t.awaiting with
      | some a => if t.retransmit then some (a.item, true) else none
      | none => some (x, false)
  | [] =>
    match t.awaiting with
    | some a => if t.retransmit then some (a.item, true) else none
    | none => none

/-- The current frame's collision count (R65): of the frame on the line, else of the frame to be sent next. -/
def Tle.collisionCount (t : Tle) : Nat :=
  match t.line with
  | some (.frame x _ _ _) => x.collisions
  | some (.clear _ _) => 0
  | none =>
    match t.eligible with
    | some (x, _) => x.collisions
    | none => 0

/-- The engine is sending a line clear. -/
def Tle.sendingClear (t : Tle) : Bool :=
  match t.line with
  | some (.clear _ _) => true
  | _ => false

/-- The engine compares the line with the frame it is sending (R76). A line clear and a test frame are not examined (R76,
R176). -/
def Tle.compares (t : Tle) : Bool :=
  match t.line with
  | some (.frame x seq _ left) => comparedAt (frameCells (x.frame.wire seq)) (x.frame.time - left)
  | _ => false

/-- The engine pulls TAP low now, and else releases it (R62): by the cells of its frame (R63), for the 2 ms of a line clear
(R82), and by the cells of an EXTERNAL test frame; an INTERNAL one releases TAP throughout (R176). The moment within a frame
is the microseconds since its begin (entry 44). -/
def Tle.pullsLow (t : Tle) : Bool :=
  match t.line with
  | some (.frame x seq _ left) => pulledAt (frameCells (x.frame.wire seq)) (x.frame.time - left)
  | some (.clear _ left) => left != 0
  | none =>
    match t.test with
    | some x =>
      match x.mode, x.phase with
      | .external, .sending left => pulledAt (frameCells (frameBytes .note 0 x.pattern)) (lineTime x.pattern.length - left)
      | _, _ => false
    | none => false

/-- The line is low now: the part or another side pulls it low (R62). -/
def Tle.lineLow (t : Tle) : Bool := t.pullsLow || t.tapLow

/-- The engine drives the line: a frame, a line clear, or an EXTERNAL test frame (R62). -/
def Tle.driving (t : Tle) : Bool :=
  t.line.isSome
    || (match t.test with
        | some x =>
          match x.mode, x.phase with
          | .external, .sending _ => true
          | _, _ => false
        | none => false)

/-- An EXTERNAL link test waits for its guard (R176). -/
def Tle.testWaiting (t : Tle) : Bool :=
  match t.test with
  | some x => x.phase = .waiting
  | none => false

/-- The idle guard counts: the line is high, nothing is being sent and nothing received (R73). -/
def Tle.guardRuns (t : Tle) : Bool := !t.tapLow && !t.driving && !t.receiving

/-! ### Line clears and the flush (R82, R15 step 4) -/

/-- The engine begins a line clear at once and counts it; a frame on the line is abandoned (R82). While it sends the
clear it measures no low (R83). -/
def State.sendClear (s : State) (p : PortNo) (order : Option Nat) : State :=
  (s.modTle p fun t =>
    { t with line := some (.clear order Config.clearSendTime), guard := 0, lowLeft := none, receiving := false }).count p
    fun c => { c with clearsSent := bump c.clearsSent }

/-- The engine after teardown step 4 (R15, R65): everything but the counters, the line's level and a line clear being
sent returns to its reset value; the detector follows the new state (R83). -/
def Tle.flush (t : Tle) (detector : Bool) : Tle :=
  { Tle.atReset t.tapLow with
    line := if t.sendingClear then t.line else none
    detector := detector
    counters := t.counters
    test := t.test }

end Sys2Proof.Machine
end

