-- ==== Sys2Proof/Machine/Pool.lean ====
section
/-! DEFINITION. The Budget Pool's account, wait list and admission pass (R20 to R37), with what LC does to an entry within a
pass: an admission (R33, R52, R102) and the denial of a claim that would not wait (R36). -/

namespace Sys2Proof.Machine

open Sys2Proof

/-! ### The account (R21) -/

/-- Effective capacity is the greater of target capacity and committed, recomputed after a change to either (R21). -/
def Pool.recompute (b : Pool) : Pool := { b with effective := max b.target b.committed }

/-- A shrink is in progress (R21). -/
def Pool.shrinking (b : Pool) : Bool := b.target < b.effective

/-- A port's held units rise by a need, and committed with them (R4, R21). -/
def State.raiseHeld (s : State) (p : PortNo) (need : Nat) : State :=
  (s.modEntry p fun e => { e with held := e.held + need }).modPool fun b =>
    Pool.recompute { b with committed := b.committed + need }

/-- A port's held units fall to a level, and BP takes the release (R4, R26). -/
def State.lowerHeld (s : State) (p : PortNo) (level : Nat) : State :=
  let freed := (s.entry p).held - level
  (s.modEntry p fun e => { e with held := e.held - freed }).modPool fun b =>
    Pool.recompute { b with committed := b.committed - freed }

/-- Sum of what the ports in CUTTING will return (R38). -/
def State.incomingOf (s : State) (p : PortNo) : Nat :=
  match (s.entry p).cut with
  | some c => if (s.entry p).state = .cutting then (s.entry p).held - c.targetUnits else 0
  | none => 0

/-- Incoming units (R38). -/
def State.incoming (s : State) : Nat := (allPorts.map s.incomingOf).sum

/-! ### The wait list (R28 to R31) and the arrival counter (R22) -/

/-- FLOOR entries stand before TIER entries (R29). -/
def WaitKind.rank : WaitKind → Nat
  | .floor => 0
  | .tier => 1

/-- The service order of R29: priority, kind, arrival number. -/
def WaitEntry.before (a b : WaitEntry) : Bool :=
  a.priority < b.priority
    || (a.priority = b.priority
      && (a.kind.rank < b.kind.rank || (a.kind.rank = b.kind.rank && a.arrival < b.arrival)))

/-- A new entry at the place its keys give it (R29). -/
def insertEntry (w : WaitEntry) : List WaitEntry → List WaitEntry
  | [] => [w]
  | x :: rest => if w.before x then w :: x :: rest else x :: insertEntry w rest

/-- The port's entry, if it has one (R28). -/
def Pool.entryOf (b : Pool) (p : PortNo) : Option WaitEntry := b.waitList.find? fun w => w.port = p

/-- Removal of a port's entry; where there is none, nothing (R30). -/
def Pool.removeEntry (b : Pool) (p : PortNo) : Pool :=
  { b with waitList := b.waitList.filter fun w => w.port != p }

/-- The port's position from the head, counted from 1, or 0 (R19). -/
def Pool.position (b : Pool) (p : PortNo) : Nat :=
  match b.waitList.findIdx? fun w => w.port = p with
  | some i => i + 1
  | none => 0

/-- The live arrival numbers: of the entries and of the grant order records (R22). -/
def Pool.liveArrivals (b : Pool) : List Nat := b.waitList.map (·.arrival) ++ allPorts.filterMap fun p => b.grantOrder[p]

/-- The rank of an arrival number among the live ones (R22). -/
def Pool.arrivalRank (b : Pool) (n : Nat) : Nat := (b.liveArrivals.filter (· < n)).length

/-- The live numbers get 0, 1, 2 and onward in their order, and the counter goes on from there (R22). -/
def Pool.renumber (b : Pool) : Pool :=
  { b with
    waitList := b.waitList.map fun w => { w with arrival := b.arrivalRank w.arrival }
    grantOrder := mapPorts fun p => b.grantOrder[p].map b.arrivalRank
    arrival := b.liveArrivals.length }

/-- The arrival counter advances by 1 after its value was taken, or BP renumbers (R22). -/
def Pool.advanceArrival (b : Pool) : Pool :=
  if b.arrival < Config.arrivalMax then { b with arrival := b.arrival + 1 } else b.renumber

/-- A new entry takes the arrival counter's value and its place in the list (R22, R25, R29). -/
def Pool.addEntry (b : Pool) (p : PortNo) (kind : WaitKind) (need priority : Nat) : Pool :=
  Pool.advanceArrival
    { b with
      waitList := insertEntry { port := p, kind := kind, need := need, priority := priority, arrival := b.arrival } b.waitList }

/-- An acknowledged GRANT writes the counter's value into the port's grant order record (R22). -/
def Pool.recordGrant (b : Pool) (p : PortNo) : Pool :=
  Pool.advanceArrival { b with grantOrder := b.grantOrder.set p (some b.arrival) }

/-- The grant order record becomes absent when the tier becomes 0 (R22). -/
def Pool.dropGrant (b : Pool) (p : PortNo) : Pool := { b with grantOrder := b.grantOrder.set p none }

/-- A changed priority moves the port's entry; it keeps its arrival number (R31). -/
def Pool.movePriority (b : Pool) (p : PortNo) (priority : Nat) : Pool :=
  match b.entryOf p with
  | some w =>
    { b with waitList := insertEntry { w with priority := priority } (b.waitList.filter fun x => x.port != p) }
  | none => b

/-- The claim tag counter after its value was taken: from 65535 to 1 (R23). -/
def nextClaimTag (n : Nat) : Nat := if n = 65535 then 1 else n + 1

/-! ### The admission pass (R33) -/

/-- The admission test, against target capacity and never effective capacity (R24). -/
def Pool.fits (b : Pool) (w : WaitEntry) : Bool := b.committed + w.need ≤ b.target

/-- The head is admitted (R33 step 3): a FLOOR entry powers its port up (R52), a TIER entry moves its claim to GRANTING
(R102). -/
def State.admitHead (s : State) (w : WaitEntry) : State :=
  let s := s.modPool fun b => { b with waitList := b.waitList.tail }
  let s := s.raiseHeld w.port w.need
  match w.kind with
  | .floor =>
    let s := s.modEntry w.port fun e => { e with state := .powering }
    s.requestWrite w.port (s.entry w.port).floor .raise
  | .tier =>
    let s := s.modEntry w.port fun e =>
      { e with
        claim := e.claim.map fun c => { c with phase := .granting, timer := none }
        lease := e.lease.map fun l => { l with running := false } }
    let e := s.entry w.port
    s.requestWrite w.port (e.unitsOf ((e.claim.map ClaimRec.standsOn).getD 0)) .raise

/-- The walk of the list from its head, which stops at the first head that does not fit (R33, R34). -/
def State.walk : Nat → State → State
  | 0, s => s
  | n + 1, s =>
    match s.pool.waitList with
    | w :: _ => if s.pool.fits w then (s.admitHead w).walk n else s
    | [] => s
termination_by structural n => n

/-- LC removes a claim without a lease (R96 steps 3 to 5; R36, R37): BP removes the entry if it is there, the port returns to
POWERED, a DENY is queued where the cause sends one, and CLAIM_DENIED is given. -/
def State.dropClaim (s : State) (p : PortNo) (c : ClaimRec) (reason : DenyReason) (sendDeny : Bool) : State :=
  let s := s.modPool fun b => b.removeEntry p
  let s := s.modEntry p fun e => { e with claim := none, state := .powered }
  let s := if sendDeny then s.queueFrame p (.deny c.tierClaimed reason c.moduleClaimId) else s
  s.notice p (.claimDenied c.tag reason)

/-- The claim of a port that entered AWAIT_BUDGET with a wait limit of 0 and still waits (R36). -/
def State.impatient (s : State) (w : WaitEntry) : Option ClaimRec :=
  match w.kind, (s.entry w.port).claim with
  | .tier, some c => if c.phase = .awaitBudget && c.timer.isNone then some c else none
  | _, _ => none

/-- The first entry of a list whose claim would not wait (R36). -/
def State.firstImpatient (s : State) : List WaitEntry → Option (PortNo × ClaimRec)
  | [] => none
  | w :: rest =>
    match s.impatient w with
    | some c => some (w.port, c)
    | none => s.firstImpatient rest

/-- An admission pass with R36 at its end, and the pass that the removal brings, as long as there is such a removal. -/
def State.passes : Nat → State → State
  | 0, s => s
  | n + 1, s =>
    let s := s.walk s.pool.waitList.length
    match s.firstImpatient s.pool.waitList with
    | some (p, c) => (s.dropClaim p c .noBudget true).passes n
    | none => s
termination_by structural n => n

end Sys2Proof.Machine
end

