-- ==== Sys2Proof/Machine/Preempt.lean ====
section
/-! DEFINITION. What BP chooses at the end of an admission pass: victim order (R128), the preemption step (R35, R126 to R128)
and the shrink evaluation (R135 to R137). The orders it sends stand in `pool.orders` until LC takes them (entry 10). -/

namespace Sys2Proof.Machine

open Sys2Proof

/-- BP sends orders to LC. -/
def State.sendOrders (s : State) (os : List PoolOrder) : State := s.modPool fun b => { b with orders := b.orders ++ os }

/-! ### Victim order (R128) -/

/-- Victim order: priority number descending, most recent grant first (a port with none last), port number descending. -/
def State.victimBefore (s : State) (a b : PortNo) : Bool :=
  let pa := (s.entry a).policy.priority
  let pb := (s.entry b).policy.priority
  let ga := (s.grantRecord a).elim 0 (· + 1)
  let gb := (s.grantRecord b).elim 0 (· + 1)
  pb < pa || (pa = pb && (gb < ga || (ga = gb && b < a)))

/-- A port at its place in victim order. -/
def State.insertVictim (s : State) (p : PortNo) : List PortNo → List PortNo
  | [] => [p]
  | x :: rest => if s.victimBefore p x then p :: x :: rest else x :: s.insertVictim p rest

/-- The ports that pass a test, in victim order. -/
def State.victims (s : State) (ok : PortNo → Bool) : List PortNo :=
  (allPorts.filter ok).foldr (fun p l => s.insertVictim p l) []

/-- What a victim's cut to tier 0 frees: held units less the floor (R128, R136). -/
def State.gain (s : State) (p : PortNo) : Nat := (s.entry p).held - (s.entry p).floor

/-- Victims from the first until an amount is covered or they run out (R128, R136). -/
def State.take (s : State) (amount : Int) : List PortNo → List PortNo
  | [] => []
  | p :: rest => if amount ≤ 0 then [] else p :: s.take (amount - s.gain p) rest

/-! ### Preemption (R35, R126 to R128) -/

/-- A port eligible as a preemption victim for a head of this priority (R127). -/
def State.preemptable (s : State) (head : Nat) (p : PortNo) : Bool :=
  let e := s.entry p
  e.state = .powered && e.tier != 0 && e.policy.preemptible && head < e.policy.priority && e.lowering.isNone

/-- The head that the preemption step serves, if the condition of R35 holds. -/
def State.preemptHead (s : State) : Option WaitEntry :=
  match s.pool.waitList with
  | w :: _ =>
    if s.pool.preemption && !s.pool.shrinking && !s.pool.fits w && (s.impatient w).isNone then some w else none
  | [] => none

/-- The shortfall of a head (R126). -/
def State.shortfall (s : State) (w : WaitEntry) : Int :=
  (w.need : Int) - ((s.pool.target : Int) - s.pool.committed) - s.incoming

/-- The victims of the preemption step, none where its condition does not hold (R126 to R128). -/
def State.preemptVictims (s : State) : List PortNo :=
  match s.preemptHead with
  | some w => s.take (s.shortfall w) (s.victims (s.preemptable w.priority))
  | none => []

/-- The preemption step: a cut order for each victim (R126 to R128). -/
def State.preempt (s : State) : State := s.sendOrders (s.preemptVictims.map .preempt)

/-! ### Shrink evaluation (R135 to R137) -/

/-- The excess of an evaluation (R135). -/
def State.excess (s : State) : Int := (s.pool.committed : Int) - s.incoming - s.pool.target

/-- A port a shrink may cut: POWERED or in an AWAIT phase, above tier 0, and LC is not lowering it (R136). -/
def State.shrinkable (s : State) (p : PortNo) : Bool :=
  let e := s.entry p
  (e.state = .powered || e.awaiting) && e.tier != 0 && e.lowering.isNone

/-- The victims of an evaluation's cut step (R136). -/
def State.shrinkVictims (s : State) : List PortNo := s.take s.excess (s.victims s.shrinkable)

/-- Work in flight on a port (R137): it is in CUTTING or GRANTING, or LC is lowering it. -/
def State.inFlight (s : State) (p : PortNo) : Bool :=
  let e := s.entry p
  e.state = .cutting || e.granting || e.lowering.isSome

/-- A candidate for floor withdrawal (R137): POWERED or in an AWAIT phase, at its floor. -/
def State.withdrawable (s : State) (p : PortNo) : Bool :=
  let e := s.entry p
  (e.state = .powered || e.awaiting) && e.tier = 0

/-- The floor withdrawal an evaluation may order (R137): of the first candidate alone, with nothing in flight. -/
def State.withdrawal (s : State) : List PortNo :=
  if allPorts.any s.inFlight then [] else (s.victims s.withdrawable).take 1

/-- A shrink evaluation (R135): cut orders (R136), or where there is no victim the withdrawal of a floor (R137). -/
def State.evaluate (s : State) : State :=
  if s.pool.shrinking && decide (0 < s.excess) then
    let chosen := s.shrinkVictims
    s.sendOrders (if chosen.isEmpty then s.withdrawal.map .withdraw else chosen.map .shrink)
  else s

/-! ### The pass (R32, R33) -/

/-- BP runs an admission pass (R32, R33, R36), and at its end the preemption step and the shrink evaluation. -/
def State.runPass (s : State) : State := ((s.passes (s.pool.waitList.length + 1)).preempt).evaluate

end Sys2Proof.Machine
end

