-- ==== Sys2Proof/Machine/Teardown.lean ====
section
/-! DEFINITION. Entering SENSING, VACANT and OFF (R41 to R43), port teardown and floor withdrawal (R15 to R17), and the events
that end in one: a fault-assert (R58), a link loss (R81) and a line clear sent (R82). -/

namespace Sys2Proof.Machine

open Sys2Proof

/-! ### Presence (R41 to R43) -/

/-- The port enters SENSING and its attach debounce starts in the band the input lies in (R42). -/
def State.enterSensing (s : State) (p : PortNo) : State :=
  (s.modEntry p fun e => { e with state := .sensing }).modSense p fun u =>
    { u with mode := .debounce, attachTimer := some Config.attachDebounce, detachTimer := none }

/-- The port enters VACANT and its SU WATCH; an input already in a class band is reported at once (R41). -/
def State.enterVacant (s : State) (p : PortNo) : State :=
  let s := (s.modEntry p fun e => { e with state := .vacant }).modSense p fun u =>
    { u with mode := .watch, attachTimer := none, detachTimer := none }
  if (s.sense p).band.present then s.enterSensing p else s

/-- The SU goes to DISABLED and abandons any debounce (R41). DESIGN CHOICE: the detach-reported flag, of which the spec says
nothing here, is cleared (entry 45). -/
def State.senseOff (s : State) (p : PortNo) : State :=
  s.modSense p fun u =>
    { u with mode := .disabled, attachTimer := none, detachTimer := none, detachReported := false }

/-! ### Teardown (R15, R16, R17) -/

/-- The causes of a teardown (R16). -/
inductive TearCause where
  | detach
  | fault
  | lockout
  | clearReceived
  | linkLost (kind : FrameKind)
  | overdraw
  | hostClear
  | disable
  | withdrawal
deriving DecidableEq, Repr

/-- The next state (R16). -/
def TearCause.next : TearCause → PortState
  | .detach => .vacant
  | .fault => .faulted
  | .lockout => .off
  | .clearReceived => .clearing
  | .linkLost _ => .clearing
  | .overdraw => .clearing
  | .hostClear => .clearing
  | .disable => .off
  | .withdrawal => .starved

/-- The status of the completed commands (R16). -/
def TearCause.status : TearCause → Status
  | .detach => .detached
  | .fault => .faulted
  | .lockout => .faulted
  | .clearReceived => .cleared
  | .linkLost _ => .cleared
  | .overdraw => .cleared
  | .hostClear => .cleared
  | .disable => .cleared
  | .withdrawal => .withdrawn

/-- The notices, in order, given the port's faults count, class and floor (R16; 11, Notice payloads). -/
def TearCause.notices (c : TearCause) (e : Entry) : List Notice :=
  match c with
  | .detach => [.detach]
  | .fault => [.fault e.faults]
  | .lockout => [.fault e.faults, .lockout]
  | .clearReceived => [.lineClear .received]
  | .linkLost kind => [.linkLost kind, .lineClear .linkLost]
  | .overdraw => [.lineClear .overdraw]
  | .hostClear => [.lineClear .host]
  | .disable => []
  | .withdrawal => [.starved e.cls e.floor]

/-- What the result of a command holds when a teardown completes it: tier 0 and 0 units for a REVOKE (R125), the byte
count of a RELAY (R154), the state taken of a PORT_DISABLE (R151). -/
def Slot.tearResult (sl : Slot) : List Byte :=
  match sl.kind with
  | .portDisable taken => [byteOf taken.code]
  | .revoke => 0#8 :: le16 0
  | .relay count => [count]
  | .setBudget => []
  | .lineClear => []
  | .linkTest => []
  | .sync _ _ => []

/-- The open commands bound to a port, in the order taken, but for the one whose request caused the teardown (R15). -/
def Qe.boundTo (q : Qe) (p : PortNo) (keep : Option Nat) : List Slot :=
  q.slots.filter fun sl => sl.bound = some p && keep != some sl.order

/-- The bound commands complete with the cause's status in the order taken (R15 step 6). -/
def State.completeBound (s : State) (p : PortNo) (keep : Option Nat) (status : Status) : State :=
  (s.qe.boundTo p keep).foldl (fun s sl => s.complete sl.order status sl.tearResult) s

/-- Step 3: LC discards the records and fields; a floor withdrawal keeps class and floor (R15, R17). What waits at LC and
what is deferred goes with them (R89, R92, R119, R123). -/
def Entry.strip (e : Entry) (keepClass : Bool) : Entry :=
  { e with
    cls := if keepClass then e.cls else .none
    floor := if keepClass then e.floor else 0
    tier := 0
    strikes := 0
    lastDraw := none
    module := none
    lease := none
    claim := none
    cut := none
    clearRest := none
    cooldown := none
    lowering := none
    waiting := []
    deferredAnnounce := none
    deferredCeiling := false }

/-- Step 5: the new state with its timer, and the SU mode it takes (R15, R16, R41, R57). -/
def State.enterAfter (s : State) (p : PortNo) (c : TearCause) : State :=
  match c.next with
  | .vacant => s.enterVacant p
  | .clearing =>
    (s.modEntry p fun e => { e with state := .clearing, clearRest := some Config.clearRestTime }).modSense p fun u =>
      { u with mode := .attached, detachReported := false }
  | .faulted =>
    (s.modEntry p fun e => { e with state := .faulted, cooldown := some e.policy.cooldownTime }).modSense p fun u =>
      { u with mode := .attached, detachReported := false }
  | .off => (s.modEntry p fun e => { e with state := .off }).senseOff p
  | st => s.modEntry p fun e => { e with state := st }

/-- Port teardown (R15) and, with cause withdrawal, floor withdrawal (R17). `keep` is the command whose own request caused
it. -/
def State.teardown (s : State) (p : PortNo) (c : TearCause) (keep : Option Nat) : State :=
  let told := c.notices (s.entry p)
  let s := s.teardownWrite p
  let s := (s.lowerHeld p 0).modPool fun b => (b.removeEntry p).dropGrant p
  let s :=
    if c = .withdrawal then
      let e := s.entry p
      s.modPool fun b => b.addEntry p .floor e.floor e.policy.priority
    else s
  let s := s.modEntry p fun e => e.strip (c = .withdrawal)
  let s := s.modTle p fun t => t.flush (c.next = .clearing)
  let s := s.enterAfter p c
  let s := told.foldl (fun s n => s.notice p n) s
  let s := s.completeBound p keep c.status
  s.runPass

/-! ### Events that end in a teardown -/

/-- A fault-assert reported by the SU (R58, R8). -/
def State.faultAssert (s : State) (p : PortNo) : State :=
  if (s.entry p).held = 0 then s
  else
    let s := s.modEntry p fun e => { e with faults := min 3 (e.faults + 1) }
    s.teardown p (if (s.entry p).faults < 3 then .fault else .lockout) none

/-- A frame is reported lost (R78, R79, R81): the RELAY of a lost NOTE completes LINK_LOST, a line clear is sent, and the
port is torn down. -/
def State.linkLoss (s : State) (p : PortNo) (f : TxFrame) : State :=
  let s := s.count p fun c => { c with linkLosses := bump c.linkLosses }
  let s :=
    match f with
    | .note order _ bytes => s.complete order .linkLost [byteOf bytes.length]
    | _ => s
  (s.sendClear p none).teardown p (.linkLost f.kind) none

end Sys2Proof.Machine
end

