-- ==== Sys2Proof/Machine/Lease.lean ====
section
/-! DEFINITION. The Lease Controller's operations on offers, cuts and lowerings: R93, R110 to R113, R119, R122, R125. -/

namespace Sys2Proof.Machine

open Sys2Proof

/-- An OFFER with the permitted tier count and the policy's lease length is queued (R93). -/
def State.queueOffer (s : State) (p : PortNo) : State :=
  let e := s.entry p
  s.queueFrame p (.offer e.permitted e.policy.leaseLength)

/-! ### Cuts -/

/-- The deadline a CUT frame carries: whole units of 10 ms, at least 1 (R112). -/
def cutUnits (deadline : Nat) : Nat := max 1 (deadline / 10000)

/-- A CUT frame for the port's cut record is queued (R112). -/
def State.queueCut (s : State) (p : PortNo) : State :=
  match (s.entry p).cut with
  | some c => s.queueFrame p (.cut c.target (cutUnits c.deadline))
  | none => s

/-- A cut is created on a port in POWERED (R111). -/
def State.createCut (s : State) (p : PortNo) (target : Nat) (cause : CutCause) (override : Option Nat)
    (tag : Option Word16) : State :=
  let s := s.modEntry p fun e =>
    { e with
      state := .cutting
      cut := some
        { target := target, targetUnits := e.unitsOf target, deadline := override.getD e.policy.cutTime, running := true
          cause := cause, cmdTag := tag } }
  s.queueCut p

/-- A cut ordered on a port in CUTTING narrows the record when its target is lower (R113). -/
def State.narrowCut (s : State) (p : PortNo) (target : Nat) (cause : CutCause) (override : Option Nat)
    (tag : Option Word16) : State :=
  match (s.entry p).cut with
  | some c =>
    if target < c.target then
      let s := s.modEntry p fun e =>
        { e with
          cut := some
            { c with
              target := target, targetUnits := e.unitsOf target
              deadline := min c.deadline (override.getD e.policy.cutTime)
              cause := cause, cmdTag := if tag.isSome then tag else c.cmdTag } }
      s.queueCut p
    else s
  | none => s

/-- LC takes a cut order on a port that is in POWERED or CUTTING; in any other state nothing is cut (R110). -/
def State.orderCut (s : State) (p : PortNo) (target : Nat) (cause : CutCause) (override : Option Nat)
    (tag : Option Word16) : State :=
  let e := s.entry p
  if e.tier ≤ target then s
  else if e.state = .powered then s.createCut p target cause override tag
  else if e.state = .cutting then s.narrowCut p target cause override tag
  else s

/-- The ceiling cut on a port against the ceiling in force (R122, R123). -/
def State.ceilingCut (s : State) (p : PortNo) : State :=
  let e := s.entry p
  if e.policy.ceiling < e.unitsOf e.tier && e.tier != 0 then s.orderCut p e.permitted .ceiling none none else s

/-- LC requests a lowering write of a tier's units and awaits PSI's report (R48, R119). -/
def State.startLowering (s : State) (p : PortNo) (tier : Nat) (l : Lowering) : State :=
  (s.modEntry p fun e => { e with lowering := some l }).requestWrite p ((s.entry p).unitsOf tier) .lower

/-- The concluding event of a cut at a tier (R115 to R117): the deadline stops and the lowering write is requested. -/
def State.concludeCut (s : State) (p : PortNo) (tier : Nat) (forced : Bool) : State :=
  (s.modEntry p fun e => { e with cut := e.cut.map fun c => { c with running := false } }).startLowering p tier
    (.conclude tier forced)

/-- The tier in force falls: at tier 0 the lease record and the grant order record go, above it the lease record takes the
tier and its units (R6, R11, R22). -/
def State.setTier (s : State) (p : PortNo) (tier : Nat) : State :=
  if tier = 0 then
    (s.modEntry p fun e => { e with tier := 0, lease := none }).modPool fun b => b.dropGrant p
  else
    s.modEntry p fun e =>
      { e with
        tier := tier
        lease := e.lease.map fun l => { l with tier := tier, units := e.unitsOf tier } }

/-- The open REVOKEs bound to a port's cut: those of the port that do not wait at LC (R119, R125). -/
def State.cutRevokes (s : State) (p : PortNo) : List Slot :=
  s.qe.slots.filter fun sl =>
    sl.bound = some p && sl.kind = .revoke
      && !((s.entry p).waiting.any fun w =>
        match w with
        | .revoke order _ _ _ => order == sl.order
        | _ => false)

/-- Every REVOKE bound to the cut completes, with the tier in force and its units (R125). -/
def State.completeRevokes (s : State) (p : PortNo) (tier units : Nat) (status : Status) : State :=
  (s.cutRevokes p).foldl (fun s sl => s.complete sl.order status (byteOf tier :: le16 units)) s

end Sys2Proof.Machine
end

