-- ==== Sys2Proof/Machine/Claims.lean ====
section
/-! DEFINITION. A claim's way into AWAIT_BUDGET (R25, R99) and its end without a lease (R37, R96). -/

namespace Sys2Proof.Machine

open Sys2Proof

/-- A claim enters AWAIT_BUDGET for a tier: its wait limit starts, BP places its TIER entry and runs a pass (R25, R37,
R99). -/
def State.requestTier (s : State) (p : PortNo) (tier : Nat) : State :=
  let s := s.modEntry p fun e =>
    { e with
      claim := e.claim.map fun c => { c with phase := .awaitBudget, granted := some tier, timer := e.policy.waitTimer } }
  let e := s.entry p
  (s.modPool fun b => b.addEntry p .tier (e.unitsOf tier - e.held) e.policy.priority).runPass

/-- A claim ends by denial or withdrawal (R96 steps 1 to 5). The pass is that of an AWAIT_BUDGET claim alone, and the port is
still in CLAIMING when BP chooses at its end.
DESIGN CHOICE: also where an ANNOUNCE withdraws the claim (R88, entry 39). -/
def State.endClaim (s : State) (p : PortNo) (reason : DenyReason) (sendDeny : Bool) : State :=
  match (s.entry p).claim with
  | some c =>
    let s := if c.phase = .awaitBudget then (s.modPool fun b => b.removeEntry p).runPass else s
    s.dropClaim p c reason sendDeny
  | none => s

/-- A wait limit has run out (R37 steps 1 to 4): here the pass comes last. -/
def State.expireClaim (s : State) (p : PortNo) : State :=
  match (s.entry p).claim with
  | some c => (s.dropClaim p c .noBudget true).runPass
  | none => s

end Sys2Proof.Machine
end

