-- ==== Sys2Proof/Machine/Shrink.lean ====
section
/-! DEFINITION. What LC does with BP's orders (R129, R136, R137), the end of a shrink (R139, R140), and how every event of the
part ends. -/

namespace Sys2Proof.Machine

open Sys2Proof

/-! ### LC takes BP's orders (R129, R136, R137) -/

/-- LC takes a PREEMPT cut order (R129): on a port in POWERED above tier 0 that it is not lowering; else it is not taken. -/
def State.takePreempt (s : State) (p : PortNo) : State :=
  let e := s.entry p
  if e.state = .powered && e.tier != 0 && e.lowering.isNone then s.orderCut p 0 .preempt none none else s

/-- LC takes a SHRINK cut order (R136): a claim in an AWAIT phase is first denied NO_BUDGET. -/
def State.takeShrink (s : State) (p : PortNo) : State :=
  if s.shrinkable p then
    let s := if (s.entry p).awaiting then s.endClaim p .noBudget true else s
    s.orderCut p 0 .shrink none none
  else s

/-- LC takes a floor withdrawal (R137, R17, R89): on a port in POWERED or CLAIMING at tier 0 that it is not lowering; else it is
not taken. -/
def State.takeWithdrawal (s : State) (p : PortNo) : State :=
  let e := s.entry p
  if (e.state = .powered || e.state = .claiming) && e.tier = 0 && e.lowering.isNone then s.teardown p .withdrawal none
  else s

/-- LC takes an order of BP, as an event of its own. -/
def State.takeOrder (s : State) : PoolOrder → State
  | .preempt p => s.takePreempt p
  | .shrink p => s.takeShrink p
  | .withdraw p => s.takeWithdrawal p

/-- LC takes the orders sent, in the order sent, and then those sent by the passes that they bring. In each round an order
denies a claim or withdraws a floor, or it is the last, so the bound of settlePool is not reached (entry 26). -/
def State.takeOrders : Nat → State → State
  | 0, s => s.modPool fun b => { b with orders := [] }
  | n + 1, s =>
    if s.pool.orders.isEmpty then s
    else (s.pool.orders.foldl State.takeOrder (s.modPool fun b => { b with orders := [] })).takeOrders n
termination_by structural n => n

/-- BP's orders are taken when LC's rule of the event has run (entry 10). -/
def State.settlePool (s : State) : State := s.takeOrders 32

/-! ### The end of a shrink, and of an event -/

/-- The result of a SET_BUDGET: target and committed (R133, R134, R140). -/
def State.budgetResult (s : State) : List Byte := le16 s.pool.target ++ le16 s.pool.committed

/-- At the end of a shrink the open SET_BUDGET completes OK; one that started none completes at once (R133, R140). -/
def State.endShrink (s : State) : State :=
  if s.pool.committed ≤ s.pool.target then
    match s.qe.slots.find? fun sl => sl.kind == .setBudget with
    | some sl => s.complete sl.order .ok s.budgetResult
    | none => s
  else s

/-- How an event of LC ends: BP's orders, and then the end of a shrink, behind all that the event gave (R140). -/
def State.conclude (s : State) : State := s.settlePool.endShrink

/-- How every event of the part ends: as at LC, and with the ring accesses that may begin. -/
def State.finish (s : State) : State := s.conclude.modQe Qe.startAccesses

/-- An event of the part: held while RESET# is low (R1), else its effect and its end. -/
def event (s : State) (f : State → State) : Host.Outcome State Fault Refusal :=
  if s.resetLow then .next s else .next (f s).finish

end Sys2Proof.Machine
end

