-- ==== Sys2Proof/Machine/Deliver.lean ====
section
/-! DEFINITION. What LC does with a delivered frame (R86 to R96, R106 to R108, R115, R116, R120, R121), with a timer that
runs out (R37, R97, R109, R117), with PSI's reports (R48, R53, R89, R103, R118) and with an acknowledged GRANT (R104). -/

namespace Sys2Proof.Machine

open Sys2Proof

/-! ### ANNOUNCE (R86 to R92) -/

/-- The completion of an announcement on a port that holds only its floor (R90, R91). -/
def State.completeAnnounce (s : State) (p : PortNo) (payload : List Byte) : State :=
  match readAnnounce (s.entry p).floor payload with
  | some m =>
    let s := s.modEntry p fun e => { e with module := some m, faults := 0 }
    let s := s.queueOffer p
    s.notice p (.announced m.id (s.entry p).permitted m.tiers)
  | none =>
    let s := s.modEntry p fun e => { e with module := none }
    (s.protocolError p).queueOffer p

/-- The drop of an announcement, or its completion where the port is at tier 0 (R89 to R91). -/
def State.dropForAnnounce (s : State) (p : PortNo) (payload : List Byte) : State :=
  if (s.entry p).tier = 0 then s.completeAnnounce p payload
  else (s.setTier p 0).startLowering p 0 (.drop payload)

/-- An ANNOUNCE taken by LC (R86, R88, R92): deferred in GRANTING; else it withdraws a claim in an AWAIT phase, or concludes
a cut at tier 0, whose REVOKEs complete OK, and then drops the port to its floor. -/
def State.takeAnnounce (s : State) (p : PortNo) (payload : List Byte) : State :=
  let e := s.entry p
  if e.granting then s.modEntry p fun e => { e with deferredAnnounce := some payload }
  else if e.awaiting then (s.endClaim p .busy false).dropForAnnounce p payload
  else if e.state = .cutting then
    let s := s.modEntry p fun e => { e with cut := none, state := .powered }
    let s := s.completeRevokes p 0 e.floor .ok
    s.runPass.dropForAnnounce p payload
  else s.dropForAnnounce p payload

/-! ### CLAIM (R94, R95) -/

/-- The claim record of an accepted CLAIM, and what its auto-grant policy starts (R95, R23). -/
def State.openClaim (s : State) (p : PortNo) (tier : Nat) (mcid : Byte) : State :=
  let tag : Word16 := BitVec.ofNat 16 s.pool.claimTag
  let s := s.modPool fun b => { b with claimTag := nextClaimTag b.claimTag }
  let s := s.modEntry p fun e =>
    { e with
      state := .claiming
      claim := some
        { tag := tag, tierClaimed := tier, moduleClaimId := mcid, phase := .awaitHost, granted := none
          timer := some e.policy.windowTime, grantLength := none } }
  let e := s.entry p
  if e.policy.autoGrant then s.requestTier p tier
  else s.notice p (.claim tag tier (e.unitsOf tier) mcid (e.policy.decisionWindow * 10))

/-- A CLAIM taken by LC: the checks of R94 in order, then R95. -/
def State.takeClaim (s : State) (p : PortNo) (tier : Nat) (mcid : Byte) : State :=
  let e := s.entry p
  let q := (s.tle p).queue
  if e.module.isNone then (s.queueFrame p (.deny tier .badTier mcid)).protocolError p
  else if e.state = .cutting then s.queueFrame p (.deny tier .reducing mcid)
  else if e.state = .claiming then
    if answersQueued q < 2 && !(q.any fun x => x.frame.isBusy) then s.queueFrame p (.deny tier .busy mcid)
    else s.protocolError p
  else if tier = 0 || e.tierCount < tier || tier ≤ e.tier then
    (s.queueFrame p (.deny tier .badTier mcid)).protocolError p
  else if e.policy.ceiling < e.unitsOf tier then (s.queueFrame p (.deny tier .overOffer mcid)).protocolError p
  else s.openClaim p tier mcid

/-! ### RENEW (R107, R108) -/

/-- The overdraw margin at an applied level (R108). -/
def drawMargin (applied : Nat) : Nat := max 2 (applied / 8)

/-- Whether a draw is a strike at an applied level (R108). -/
def isStrike (draw applied : Nat) : Bool := Config.maxLevel < draw || applied + drawMargin applied < draw

/-- A RENEW taken by LC: the draw is recorded and tested, and in POWERED the lease restarts; the third strike in a row clears
the line (R107, R108). -/
def State.takeRenew (s : State) (p : PortNo) (draw : Nat) : State :=
  let s := if Config.maxLevel < draw then s.protocolError p else s
  let strike := isStrike draw (s.applied p)
  let s := s.modEntry p fun e =>
    { e with
      lastDraw := some (min draw Config.maxLevel)
      strikes := if strike then min 3 (e.strikes + 1) else 0
      lease :=
        if e.state = .powered then
          e.lease.map fun l => { l with remaining := l.length * Config.second, running := true }
        else e.lease }
  let s := if strike then s.count p fun c => { c with strikesTotal := bump c.strikesTotal } else s
  if (s.entry p).strikes = 3 then (s.sendClear p none).teardown p .overdraw none else s

/-! ### RELEASE and DONE (R115, R116, R120, R121) -/

/-- A RELEASE on a port in POWERED (R120). -/
def State.releasePowered (s : State) (p : PortNo) (tier : Nat) : State :=
  if tier < (s.entry p).tier then (s.setTier p tier).startLowering p tier .release else s.protocolError p

/-- A RELEASE taken by LC, by state and phase (R116, R120, R121). -/
def State.takeRelease (s : State) (p : PortNo) (tier : Nat) : State :=
  let e := s.entry p
  if e.granting then s.protocolError p
  else if e.awaiting then (s.endClaim p .busy false).releasePowered p tier
  else if e.state = .powered then s.releasePowered p tier
  else match e.cut with
    | some c =>
      if tier ≤ c.target then s.concludeCut p tier false
      else if tier < e.tier then (s.setTier p tier).startLowering p tier .partialRelease
      else s.protocolError p
    | none => s

/-- A DONE taken by LC (R115). -/
def State.takeDone (s : State) (p : PortNo) (tier : Nat) : State :=
  match (s.entry p).cut with
  | some c => if tier ≤ c.target then s.concludeCut p tier false else s.protocolError p
  | none => s.protocolError p

/-- A NOTE taken by LC (R106). -/
def State.takeNote (s : State) (p : PortNo) (bytes : List Byte) : State :=
  if (s.entry p).module.isSome then s.notice p (.note bytes) else s.protocolError p

/-- A delivered frame taken by LC on the port's entry. -/
def State.takeFrame (s : State) (p : PortNo) (kind : FrameKind) (payload : List Byte) : State :=
  match kind with
  | .announce => s.takeAnnounce p payload
  | .claim => s.takeClaim p (byteAt payload 0).toNat (byteAt payload 1)
  | .renew => s.takeRenew p (word16At payload 0).toNat
  | .release => s.takeRelease p (byteAt payload 0).toNat
  | .done => s.takeDone p (byteAt payload 0).toNat
  | .note => s.takeNote p payload
  | .ack | .offer | .grant | .deny | .cut => s

/-! ### Timers that run out -/

/-- A lease expiry taken by LC (R109). An expiry that waited has no effect where the lease is gone, was restarted by a RENEW
taken before it, or stands still in a GRANTING that a CLAIM taken before it began (entry 19). -/
def State.takeLeaseExpiry (s : State) (p : PortNo) : State :=
  match (s.entry p).lease with
  | some l =>
    if l.remaining = 0 && !(s.entry p).granting then
      let s := if (s.entry p).awaiting then s.endClaim p .reducing true else s
      (s.orderCut p 0 .expiry none none).notice p (.leaseLapsed l.tier l.units)
    else s
  | none => s

/-- The cut deadline taken by LC (R117): CUT_FORCED, and the deadline is the concluding event at the target. -/
def State.takeCutDeadline (s : State) (p : PortNo) : State :=
  match (s.entry p).cut with
  | some c =>
    if c.deadline = 0 then
      (s.notice p (.cutForced (s.entry p).tier c.target c.cause)).concludeCut p c.target true
    else s
  | none => s

/-! ### REVOKE (R124 checks 5 to 8) -/

/-- The result of a REVOKE: the tier in force and its units (R125). -/
def State.tierResult (s : State) (p : PortNo) : List Byte :=
  byteOf (s.entry p).tier :: le16 ((s.entry p).unitsOf (s.entry p).tier)

/-- Checks 5 to 8 of R124 for the open REVOKE of this order number. -/
def State.applyRevoke (s : State) (p : PortNo) (order : Nat) (tag : Word16) (target override : Nat) : State :=
  let stand := ((s.entry p).claim.map ClaimRec.standsOn).getD 0
  let s := if (s.entry p).awaiting && target < stand then s.endClaim p .reducing true else s
  let e := s.entry p
  if (e.state = .powered || e.state = .cutting) && target < e.tier then
    s.orderCut p target .revoke (if override = 0 then none else some (override * Config.ms)) (some tag)
  else s.complete order .ok (s.tierResult p)

/-! ### Events that waited at LC (R89, R119) -/

/-- An event that waited, taken now. -/
def State.takeWaiting (s : State) (p : PortNo) (w : Waiting) : State :=
  match w with
  | .frame kind payload => s.takeFrame p kind payload
  | .revoke order tag target override => s.applyRevoke p order tag target override
  | .ceilingCut => s.ceilingCut p
  | .leaseExpiry => s.takeLeaseExpiry p
  | .cutDeadline => s.takeCutDeadline p

/-- What is left of the waiting events when an ANNOUNCE has begun its drop: the REVOKEs among them no longer wait, and are
taken at once at tier 0, in order; frames go on waiting (R89, R124 check 4). -/
def State.takeRevokes (s : State) (p : PortNo) : State :=
  (s.entry p).waiting.foldl
    (fun s w =>
      match w with
      | .revoke order tag target override => s.applyRevoke p order tag target override
      | _ => s)
    (s.modEntry p fun e =>
      { e with
        waiting := e.waiting.filter fun w =>
          match w with
          | .revoke _ _ _ _ => false
          | _ => true })

/-- The waiting events are taken in the order they reached LC, each as an event of its own, until one of them starts a
lowering (R119). -/
def State.drainWaiting : Nat → State → PortNo → State
  | 0, s, _ => s
  | n + 1, s, p =>
    match (s.entry p).lowering, (s.entry p).waiting with
    | none, w :: rest =>
      (((s.modEntry p fun e => { e with waiting := rest }).takeWaiting p w).conclude).drainWaiting n p
    | some (.drop _), _ => s.takeRevokes p
    | _, _ => s
termination_by structural n => n

/-- A delivered frame reaches LC: it waits while LC lowers the port (R89, R119). -/
def State.deliver (s : State) (p : PortNo) (kind : FrameKind) (payload : List Byte) : State :=
  if (s.entry p).lowering.isSome then
    s.modEntry p fun e => { e with waiting := e.waiting ++ [.frame kind payload] }
  else s.takeFrame p kind payload

/-! ### PSI's reports -/

/-- The lowering of a cut's conclusion at a tier (R118 steps 1 to 7). -/
def State.concludeLowered (s : State) (p : PortNo) (tier : Nat) (forced : Bool) : State :=
  let s := s.lowerHeld p ((s.entry p).unitsOf tier)
  let s := s.setTier p tier
  let s := s.modEntry p fun e => { e with cut := none, state := .powered }
  let s := s.runPass
  let units := (s.entry p).unitsOf tier
  let s := s.notice p (.leaseChanged tier units)
  s.completeRevokes p tier units (if forced then .forced else .ok)

/-- The lowered report of a release: held units fall, BP runs a pass, LEASE_CHANGED is given (R116, R120). -/
def State.releaseLowered (s : State) (p : PortNo) : State :=
  let e := s.entry p
  let s := (s.lowerHeld p (e.unitsOf e.tier)).runPass
  s.notice p (.leaseChanged e.tier (e.unitsOf e.tier))

/-- PSI's lowered report taken by LC (R48, R89, R116, R118, R120), and when that event is over what waited (R119). -/
def State.lowered (s : State) (p : PortNo) : State :=
  match (s.entry p).lowering with
  | some l =>
    let n := (s.entry p).waiting.length
    let s := s.modEntry p fun e => { e with lowering := none }
    let s :=
      match l with
      | .release => s.releaseLowered p
      | .partialRelease => s.releaseLowered p
      | .conclude tier forced => s.concludeLowered p tier forced
      | .drop payload => (s.releaseLowered p).completeAnnounce p payload
    s.conclude.drainWaiting n p
  | none => s

/-- PSI's settled report taken by LC: a POWERING port becomes POWERED (R53, and R135 without a pass), a GRANTING claim queues
its GRANT (R103). -/
def State.settledReport (s : State) (p : PortNo) : State :=
  let e := s.entry p
  if e.state = .powering then
    let s := s.modEntry p fun e => { e with state := .powered }
    let s := s.modTle p fun t =>
      { t with
        receiver := true, detector := true
        lowLeft := if t.tapLow then some Config.clearDetectTime else none }
    (s.notice p (.leaseChanged 0 e.floor)).evaluate
  else if e.granting then
    match e.claim with
    | some c =>
      let tier := c.standsOn
      let s := s.modEntry p fun e =>
        { e with claim := e.claim.map fun c => { c with grantLength := some e.policy.leaseLength } }
      s.queueFrame p (.grant tier (e.unitsOf tier) e.policy.leaseLength c.moduleClaimId)
    | none => s
  else s

/-! ### The acknowledged GRANT (R104) -/

/-- LC starts the lease (R104), takes a deferred ceiling cut (R123) and then a deferred announcement (R92). -/
def State.startLease (s : State) (p : PortNo) : State :=
  match (s.entry p).claim with
  | some c =>
    if (s.entry p).granting then
      let tier := c.standsOn
      let cutLater := (s.entry p).deferredCeiling
      let announced := (s.entry p).deferredAnnounce
      let s := s.modEntry p fun e =>
        let length := c.grantLength.getD e.policy.leaseLength
        { e with
          lease := some
            { tier := tier, units := e.unitsOf tier, length := length, remaining := length * Config.second, running := true }
          tier := tier, claim := none, state := .powered, deferredCeiling := false, deferredAnnounce := none }
      let s := (s.modPool fun b => b.recordGrant p).runPass
      let s := s.notice p (.leaseChanged tier ((s.entry p).unitsOf tier))
      let s := if cutLater then s.ceilingCut p else s
      match announced with
      | some payload => s.takeAnnounce p payload
      | none => s
    else s
  | none => s

end Sys2Proof.Machine
end

