-- ==== Sys2Proof/Machine/Snapshot.lean ====
section
/-! DEFINITION. The snapshots of QUERY_PORT (R19) and QUERY_POOL (R39) as the bytes of their results (11, Completion
results). -/

namespace Sys2Proof.Machine

open Sys2Proof

/-- The flags of a STATE section: PEN, the four records, deferred announcement, deferred ceiling. -/
def State.stateFlags (s : State) (p : PortNo) : Nat :=
  let e := s.entry p
  flagByte
    [(s.power p).pen, e.module.isSome, e.lease.isSome, e.claim.isSome, e.cut.isSome, e.deferredAnnounce.isSome
    , e.deferredCeiling]

/-- QUERY_PORT section STATE. -/
def State.stateSection (s : State) (p : PortNo) : List Byte :=
  let e := s.entry p
  [0#8, byteOf e.state.code, byteOf e.cls.code, byteOf e.floor] ++ le16 e.held ++ le16 (s.applied p)
    ++ [byteOf (s.stateFlags p), byteOf e.tier, byteOf e.faults, byteOf e.strikes]
    ++ le16 (e.lastDraw.getD 0xFFFF) ++ [byteOf (s.pool.position p)]

/-- QUERY_PORT section POLICY: the ten fields in CONFIG_PORT's order and units. -/
def Policy.bytes (y : Policy) : List Byte :=
  byteOf y.priority :: le16 y.ceiling
    ++ [byteOf (bit y.autoGrant), byteOf y.leaseLength, byteOf y.cutDeadline, byteOf y.decisionWindow, byteOf y.waitLimit
       , byteOf (bit y.preemptible), byteOf y.retryLimit, byteOf y.faultCooldown]

/-- QUERY_PORT section MODULE; places beyond n are 0 (R178). DESIGN CHOICE: with present 0 the module id and n are 0 (entry
43). -/
def Entry.moduleSection (e : Entry) : List Byte :=
  match e.module with
  | some m => [2#8, 1#8] ++ le32 m.id.toNat ++ [byteOf m.tiers.length] ++ padTo 12 (m.tiers.flatMap le16)
  | none => [2#8, 0#8] ++ List.replicate 17 0#8

/-- The lease part of section RECORDS; time remaining is rounded down to the millisecond (R19). DESIGN CHOICE: with lease tier
0, no lease, units, length and time are 0 (entry 43). -/
def Entry.leaseBytes (e : Entry) : List Byte :=
  match e.lease with
  | some l => byteOf l.tier :: le16 l.units ++ [byteOf l.length] ++ le32 (l.remaining / Config.ms)
  | none => List.replicate 8 0#8

/-- The claim or cut part of section RECORDS. The timer of a claim in GRANTING is 0 (R19). DESIGN CHOICE: with tag
present 0 the tag of a cut is 0 (entry 43). -/
def Entry.recordBytes (e : Entry) : List Byte :=
  match e.claim, e.cut with
  | some c, _ =>
    [1#8] ++ le16 c.tag.toNat ++ [byteOf c.tierClaimed, c.moduleClaimId, byteOf c.phase.code, byteOf (c.granted.getD 0)]
      ++ le16 (c.timer.getD 0 / Config.ms)
  | none, some c =>
    [2#8, byteOf c.target] ++ le16 c.targetUnits ++ le16 (c.deadline / Config.ms)
      ++ [byteOf c.cause.code, byteOf (bit c.cmdTag.isSome)] ++ le16 (c.cmdTag.getD 0#16).toNat
  | none, none => [0#8]

/-- The snapshot of a section, if there is such a section (R19). -/
def State.portSnapshot (s : State) (p : PortNo) (sect : Byte) : Option (List Byte) :=
  let e := s.entry p
  match sect.toNat with
  | 0 => some (s.stateSection p)
  | 1 => some (1#8 :: e.policy.bytes)
  | 2 => some e.moduleSection
  | 3 => some (3#8 :: e.leaseBytes ++ e.recordBytes)
  | _ => none

/-- One place of the QUERY_POOL result: need, port, kind, priority, present. -/
def WaitEntry.place (w : WaitEntry) : Nat :=
  w.need % 512 + 512 * w.port.val + 4096 * w.kind.rank + 8192 * (w.priority % 4) + 32768

/-- The 64-bit field of the QUERY_POOL result. -/
def State.poolField (s : State) : Nat :=
  s.pool.target % 4096 + 2 ^ 12 * (s.pool.effective % 4096) + 2 ^ 24 * (s.pool.committed % 4096)
    + 2 ^ 36 * ((s.pool.target - s.pool.committed) % 4096) + 2 ^ 48 * (s.incoming % 4096)
    + 2 ^ 60 * bit s.pool.preemption + 2 ^ 61 * bit s.pool.shrinking

/-- The snapshot of QUERY_POOL (R39). -/
def State.poolSnapshot (s : State) : List Byte :=
  le32 s.poolField ++ le32 (s.poolField / 2 ^ 32) ++ padTo 16 (s.pool.waitList.flatMap fun w => le16 w.place)

end Sys2Proof.Machine
end

