-- ==== Sys2Proof/Machine/Commands.lean ====
section
/-! DEFINITION. The fourteen host commands as their owners take them (R141 to R157, and the rules they point to): the slot or
the reserved room, the checks of R145 in order, the command's own rule, the completion. -/

namespace Sys2Proof.Machine

open Sys2Proof

/-- The completion of a command that holds no slot (R166). -/
def State.reply (s : State) (tag : Word16) (code port : Byte) (status : Status) (result : List Byte) : State :=
  s.answer (.completion tag code port status result)

/-! ### CONFIG_PORT (R148, R149) -/

/-- Consequence 1: an open claim above the lowered ceiling is denied OVER_OFFER (R101). -/
def State.configClaim (s : State) (p : PortNo) (old : Policy) : State :=
  let e := s.entry p
  let stand := (e.claim.map ClaimRec.standsOn).getD 0
  if e.policy.ceiling < old.ceiling && e.awaiting && e.policy.ceiling < e.unitsOf stand then s.endClaim p .overOffer true
  else s

/-- Consequence 2: an OFFER with the new figures (R93). -/
def State.configOffer (s : State) (p : PortNo) (old : Policy) : State :=
  let e := s.entry p
  if (e.policy.ceiling != old.ceiling || e.policy.leaseLength != old.leaseLength)
      && (e.state = .powered || e.state = .claiming || e.state = .cutting) then s.queueOffer p
  else s

/-- Consequence 3: the ceiling cut, deferred in GRANTING (R123) and waiting while LC lowers the port (R119, R122). -/
def State.configCut (s : State) (p : PortNo) (old : Policy) : State :=
  let e := s.entry p
  if e.policy.ceiling < old.ceiling then
    if e.granting then s.modEntry p fun e => { e with deferredCeiling := true }
    else if e.tier != 0 && e.policy.ceiling < e.unitsOf e.tier then
      if e.lowering.isSome then s.modEntry p fun e => { e with waiting := e.waiting ++ [.ceilingCut] }
      else s.ceilingCut p
    else s
  else s

/-- Consequence 4: a changed priority moves the wait-list entry and runs a pass (R31). -/
def State.configPriority (s : State) (p : PortNo) (old : Policy) : State :=
  let new := (s.entry p).policy.priority
  if new != old.priority then (s.modPool fun b => b.movePriority p new).runPass else s

/-- The ten fields are written together, and the consequences follow in order (R148, R149). What BP orders at the pass of
consequence 1 is taken before the pass of consequence 4, which counts it (R126, entry 10). -/
def State.applyPolicy (s : State) (p : PortNo) (new : Policy) : State :=
  let old := (s.entry p).policy
  let s := s.modEntry p fun e => { e with policy := new }
  ((((s.configClaim p old).configOffer p old).configCut p old).settlePool).configPriority p old

/-- CONFIG_PORT (R148). -/
def State.takeConfigPort (s : State) (tag : Word16) (port : Byte) (f : PolicyFields) : State :=
  let s := s.begin
  match portOf port with
  | none => s.reply tag 0x01 port .badPort []
  | some p =>
    match policyOf f with
    | none => s.reply tag 0x01 port .badParam []
    | some new =>
      let s := (s.applyPolicy p new).settlePool
      s.reply tag 0x01 port .ok [byteOf (s.entry p).state.code]

/-! ### PORT_ENABLE and PORT_DISABLE (R150 to R152) -/

/-- PORT_ENABLE (R150). -/
def State.takePortEnable (s : State) (tag : Word16) (port : Byte) : State :=
  let s := s.begin
  match portOf port with
  | none => s.reply tag 0x02 port .badPort []
  | some p =>
    if (s.entry p).state = .off then
      if (s.tle p).sendingClear || (s.tle p).test.isSome then s.reply tag 0x02 port .badState []
      else
        let s := (s.modEntry p fun e => { e with faults := 0 }).enterVacant p
        s.reply tag 0x02 port .ok [byteOf (s.entry p).state.code]
    else s.reply tag 0x02 port .ok [byteOf (s.entry p).state.code]

/-- PORT_DISABLE (R151, R152): a powered port's supply is removed first, then a DISABLE line clear is begun, and the command
waits for it. -/
def State.takePortDisable (s : State) (tag : Word16) (port : Byte) : State :=
  let order := s.qe.nextOrder
  match portOf port with
  | none => (s.openSlot tag 0x03 port none (.portDisable .off)).complete order .badPort []
  | some p =>
    let st := (s.entry p).state
    let s := s.openSlot tag 0x03 port (some p) (.portDisable st)
    match st with
    | .off => s.complete order .ok [byteOf st.code]
    | .vacant | .sensing | .starved | .clearing | .faulted =>
      (s.teardown p .disable (some order)).complete order .ok [byteOf st.code]
    | .powering | .powered | .claiming | .cutting =>
      ((s.teardownWrite p).sendClear p (some order)).teardown p .disable (some order)

/-! ### SET_BUDGET (R132 to R134) -/

/-- SET_BUDGET: it supersedes an open one, writes the account and runs a pass; its completion is that of the end of a shrink
(State.endShrink), at once where there is none (R133). -/
def State.takeSetBudget (s : State) (tag target : Word16) (preemption : Byte) : State :=
  let order := s.qe.nextOrder
  let older := s.qe.slots.find? fun sl => sl.kind == .setBudget
  let s := s.openSlot tag 0x04 0xFF none .setBudget
  match flagOf preemption with
  | none => s.complete order .badParam []
  | some enable =>
    if Config.maxTarget < target.toNat then s.complete order .badParam []
    else
      let s :=
        match older with
        | some sl => s.complete sl.order .superseded s.budgetResult
        | none => s
      (s.modPool fun b => Pool.recompute { b with target := target.toNat, preemption := enable }).runPass

/-! ### DECIDE (R98, R99) -/

/-- The claim a DECIDE names: in AWAIT_HOST, with its tag (R98 check 4). -/
def Entry.decidable (e : Entry) (claimTag : Word16) : Option ClaimRec :=
  match e.claim with
  | some c => if c.phase = .awaitHost && c.tag = claimTag then some c else none
  | none => none

/-- The phase code of a DECIDE's result: the phase the claim of this tag is in, or 0 (R99). -/
def State.phaseCode (s : State) (p : PortNo) (claimTag : Word16) : Nat :=
  match (s.entry p).claim with
  | some c => if c.tag = claimTag then c.phase.code else 0
  | none => 0

/-- DECIDE (R98, R99). -/
def State.takeDecide (s : State) (tag : Word16) (port : Byte) (claimTag : Word16) (verdict tier : Byte) : State :=
  let s := s.begin
  match portOf port with
  | none => s.reply tag 0x05 port .badPort []
  | some p =>
    match verdictOf verdict with
    | none => s.reply tag 0x05 port .badParam []
    | some v =>
      if claimTag = 0 then s.reply tag 0x05 port .badParam []
      else
        let e := s.entry p
        match e.decidable claimTag with
        | none => s.reply tag 0x05 port .noClaim []
        | some c =>
          match v with
          | .deny =>
            (s.endClaim p .hostDenied true).reply tag 0x05 port .ok (le16 claimTag.toNat ++ [0#8])
          | .grant =>
            let g := tier.toNat
            if g ≤ e.tier || c.tierClaimed < g || e.policy.ceiling < e.unitsOf g then s.reply tag 0x05 port .badParam []
            else
              let s := s.requestTier p g
              s.reply tag 0x05 port .ok (le16 claimTag.toNat ++ [byteOf (s.phaseCode p claimTag)])

/-! ### REVOKE, LINE_CLEAR and RELAY (R85, R124, R153) -/

/-- Whether LC lowers a port other than for an announcement's drop (R124 check 4). -/
def Entry.revokeWaits (e : Entry) : Bool :=
  match e.lowering with
  | some (.drop _) => false
  | some _ => true
  | none => false

/-- REVOKE (R124). -/
def State.takeRevoke (s : State) (tag : Word16) (port target : Byte) (override : Word16) : State :=
  let order := s.qe.nextOrder
  match portOf port with
  | none => (s.openSlot tag 0x06 port none .revoke).complete order .badPort []
  | some p =>
    let s := s.openSlot tag 0x06 port (some p) .revoke
    if 5 < target.toNat || !overrideOk override.toNat then s.complete order .badParam []
    else if (s.entry p).granting then s.complete order .badState []
    else if (s.entry p).revokeWaits then
      s.modEntry p fun e =>
        { e with waiting := e.waiting ++ [.revoke order tag target.toNat override.toNat] }
    else s.applyRevoke p order tag target.toNat override.toNat

/-- LINE_CLEAR (R85). -/
def State.takeLineClear (s : State) (tag : Word16) (port : Byte) : State :=
  let order := s.qe.nextOrder
  match portOf port with
  | none => (s.openSlot tag 0x07 port none .lineClear).complete order .badPort []
  | some p =>
    let s := s.openSlot tag 0x07 port (some p) .lineClear
    match (s.entry p).state with
    | .powering | .powered | .claiming | .cutting =>
      (s.sendClear p (some order)).teardown p .hostClear (some order)
    | .off | .vacant | .sensing | .starved | .clearing | .faulted => s.complete order .badState []

/-- RELAY (R153). -/
def State.takeRelay (s : State) (tag : Word16) (port count : Byte) (bytes : List Byte) : State :=
  let order := s.qe.nextOrder
  match portOf port with
  | none => (s.openSlot tag 0x08 port none (.relay count)).complete order .badPort []
  | some p =>
    let s := s.openSlot tag 0x08 port (some p) (.relay count)
    if count.toNat = 0 || 16 < count.toNat then s.complete order .badParam []
    else if (s.entry p).module.isNone then s.complete order .badState []
    else if 2 ≤ (s.tle p).notesHeld then s.complete order .queueFull []
    else s.queueFrame p (.note order tag (padTo count.toNat bytes))

/-! ### Queries (R19, R39, R174) -/

/-- QUERY_PORT (R19). -/
def State.takeQueryPort (s : State) (tag : Word16) (port sect : Byte) : State :=
  let s := s.begin
  match portOf port with
  | none => s.reply tag 0x09 port .badPort []
  | some p =>
    match s.portSnapshot p sect with
    | none => s.reply tag 0x09 port .badParam []
    | some result => s.reply tag 0x09 port .ok result

/-- QUERY_POOL (R39). -/
def State.takeQueryPool (s : State) (tag : Word16) : State :=
  s.begin.reply tag 0x0A 0xFF .ok s.poolSnapshot

/-- QUERY_LINK (R174): the snapshot, then the clear. -/
def State.takeQueryLink (s : State) (tag : Word16) (port clear : Byte) : State :=
  let s := s.begin
  match portOf port with
  | none => s.reply tag 0x0B port .badPort []
  | some p =>
    match flagOf clear with
    | none => s.reply tag 0x0B port .badParam []
    | some c =>
      let s := s.answer (.linkSnapshot tag p c (s.tle p).counters)
      if c then s.count p fun _ => Counters.zero else s

/-! ### LINK_TEST (R175, R176) -/

/-- The test at its start: an INTERNAL frame is sent at once, an EXTERNAL one waits for the idle guard (R176). -/
def LinkTest.start (mode : TestMode) (pattern : List Byte) (order : Nat) : LinkTest where
  mode := mode
  pattern := pattern
  order := order
  timer := Config.linkTestTime
  phase :=
    match mode with
    | .internal => .sending (lineTime pattern.length)
    | .external => .waiting

/-- LINK_TEST (R175). -/
def State.takeLinkTest (s : State) (tag : Word16) (port mode length : Byte) (pattern : List Byte) : State :=
  let order := s.qe.nextOrder
  match portOf port with
  | none => (s.openSlot tag 0x0C port none .linkTest).complete order .badPort []
  | some p =>
    let s := s.openSlot tag 0x0C port (some p) .linkTest
    match testModeOf mode with
    | none => s.complete order .badParam []
    | some m =>
      if length.toNat = 0 || 16 < length.toNat then s.complete order .badParam []
      else if (s.entry p).state != .off || (s.tle p).sendingClear || (s.tle p).test.isSome then
        s.complete order .badState []
      else
        s.modTle p fun t =>
          { t with test := some (LinkTest.start m (padTo length.toNat pattern) order), receiving := false }

/-! ### SYNC and ABORT (R155 to R157) -/

/-- SYNC: it waits for every command open at its taking (R155). -/
def State.takeSync (s : State) (tag : Word16) : State :=
  let order := s.qe.nextOrder
  let open' := s.qe.slots.map fun sl => sl.order
  let s := s.openSlot tag 0x0D 0xFF none (.sync open' open'.length)
  if open'.isEmpty then s.complete order .ok [0#8] else s

/-- The result of an aborted command: the one its own rule gives at that point (R156, R157). -/
def State.abortResult (s : State) (sl : Slot) : List Byte :=
  match sl.kind, sl.bound with
  | .portDisable taken, _ => [byteOf taken.code]
  | .setBudget, _ => s.budgetResult
  | .revoke, some p => s.tierResult p
  | .revoke, none => []
  | .lineClear, _ => []
  | .relay count, _ => [count]
  | .linkTest, _ => []
  | .sync _ count, _ => [byteOf count]

/-- What an ABORT takes back beside the command's wait (R157): a REVOKE that waits at LC, a RELAY's NOTE not yet started. -/
def State.abortWork (s : State) (sl : Slot) : State :=
  match sl.kind, sl.bound with
  | .revoke, some p =>
    s.modEntry p fun e =>
      { e with
        waiting := e.waiting.filter fun w =>
          match w with
          | .revoke order _ _ _ => order != sl.order
          | _ => true }
  | .relay _, some p => s.modTle p fun t => t.dropNote sl.order
  | _, _ => s

/-- ABORT (R156): the oldest open command with the tag completes ABORTED, and then the ABORT completes OK. -/
def State.takeAbort (s : State) (tag target : Word16) : State :=
  let s := s.begin
  match s.qe.slots.find? fun sl => sl.tag == target with
  | none => s.reply tag 0x0E 0xFF .notFound []
  | some sl =>
    let s := (s.abortWork sl).complete sl.order .aborted (s.abortResult sl)
    s.reply tag 0x0E 0xFF .ok [sl.code, sl.port]

/-! ### Dispatch (R141) -/

/-- A code that is not one of the fourteen (R141): BAD_COMMAND, with port and code as read (R179). -/
def State.takeUnknown (s : State) (tag : Word16) (code port : Byte) : State :=
  s.begin.reply tag code port .badCommand []

/-- A taken command goes to its owner (R141). -/
def State.takeHost (s : State) (c : Instr) : State :=
  match c with
  | .configPort tag port f => s.takeConfigPort tag port f
  | .portEnable tag port => s.takePortEnable tag port
  | .portDisable tag port => s.takePortDisable tag port
  | .setBudget tag target preemption => s.takeSetBudget tag target preemption
  | .decide tag port claimTag verdict tier => s.takeDecide tag port claimTag verdict tier
  | .revoke tag port target override => s.takeRevoke tag port target override
  | .lineClear tag port => s.takeLineClear tag port
  | .relay tag port count bytes => s.takeRelay tag port count bytes
  | .queryPort tag port sect => s.takeQueryPort tag port sect
  | .queryPool tag => s.takeQueryPool tag
  | .queryLink tag port clear => s.takeQueryLink tag port clear
  | .linkTest tag port mode length pattern => s.takeLinkTest tag port mode length pattern
  | .sync tag => s.takeSync tag
  | .abort tag target => s.takeAbort tag target
  | _ => s

/-- A host-command row: the command is taken where the admission test passes for its code, else it is not taken and nothing
changes (R164, entry 5). -/
def hostCommand (s : State) (code : Byte) (take : State → State) : Host.Outcome State Fault Refusal :=
  if s.qe.admits code then event s take else .next s

/-- CONFIG_PORT. -/
def execConfigPort (tag : Word16) (port : Byte) (f : PolicyFields) (s : State) : Host.Outcome State Fault Refusal :=
  hostCommand s 0x01 fun s => s.takeConfigPort tag port f

/-- PORT_ENABLE. -/
def execPortEnable (tag : Word16) (port : Byte) (s : State) : Host.Outcome State Fault Refusal :=
  hostCommand s 0x02 fun s => s.takePortEnable tag port

/-- PORT_DISABLE. -/
def execPortDisable (tag : Word16) (port : Byte) (s : State) : Host.Outcome State Fault Refusal :=
  hostCommand s 0x03 fun s => s.takePortDisable tag port

/-- SET_BUDGET. -/
def execSetBudget (tag target : Word16) (preemption : Byte) (s : State) : Host.Outcome State Fault Refusal :=
  hostCommand s 0x04 fun s => s.takeSetBudget tag target preemption

/-- DECIDE. -/
def execDecide (tag : Word16) (port : Byte) (claimTag : Word16) (verdict tier : Byte) (s : State) :
    Host.Outcome State Fault Refusal :=
  hostCommand s 0x05 fun s => s.takeDecide tag port claimTag verdict tier

/-- REVOKE. -/
def execRevoke (tag : Word16) (port target : Byte) (override : Word16) (s : State) :
    Host.Outcome State Fault Refusal :=
  hostCommand s 0x06 fun s => s.takeRevoke tag port target override

/-- LINE_CLEAR. -/
def execLineClear (tag : Word16) (port : Byte) (s : State) : Host.Outcome State Fault Refusal :=
  hostCommand s 0x07 fun s => s.takeLineClear tag port

/-- RELAY. -/
def execRelay (tag : Word16) (port count : Byte) (bytes : List Byte) (s : State) : Host.Outcome State Fault Refusal :=
  hostCommand s 0x08 fun s => s.takeRelay tag port count bytes

/-- QUERY_PORT. -/
def execQueryPort (tag : Word16) (port sect : Byte) (s : State) : Host.Outcome State Fault Refusal :=
  hostCommand s 0x09 fun s => s.takeQueryPort tag port sect

/-- QUERY_POOL. -/
def execQueryPool (tag : Word16) (s : State) : Host.Outcome State Fault Refusal :=
  hostCommand s 0x0A fun s => s.takeQueryPool tag

/-- QUERY_LINK. -/
def execQueryLink (tag : Word16) (port clear : Byte) (s : State) : Host.Outcome State Fault Refusal :=
  hostCommand s 0x0B fun s => s.takeQueryLink tag port clear

/-- LINK_TEST. -/
def execLinkTest (tag : Word16) (port mode length : Byte) (pattern : List Byte) (s : State) :
    Host.Outcome State Fault Refusal :=
  hostCommand s 0x0C fun s => s.takeLinkTest tag port mode length pattern

/-- SYNC. -/
def execSync (tag : Word16) (s : State) : Host.Outcome State Fault Refusal :=
  hostCommand s 0x0D fun s => s.takeSync tag

/-- ABORT. -/
def execAbort (tag target : Word16) (s : State) : Host.Outcome State Fault Refusal :=
  hostCommand s 0x0E fun s => s.takeAbort tag target

end Sys2Proof.Machine
end

