-- ==== Sys2Proof/Machine/Registers.lean ====
section
/-! DEFINITION. Resets (R1, R162) and writes of the register window (R159 to R161, R169, R171). -/

namespace Sys2Proof.Machine

open Sys2Proof

/-! ### Resets -/

/-- Every block returns to its power-on values with QE as given; the input pins are as they are (R1, R20, R41, R45, R65,
R162, entry 8). -/
def State.resetBlocks (s : State) (qe : Qe) : State where
  resetLow := s.resetLow
  entries := Vector.replicate 8 Entry.reset
  senses := mapPorts fun p => SenseUnit.atReset (s.sense p).band (s.sense p).fault
  psi := Psi.reset
  tles := mapPorts fun p => Tle.atReset (s.tle p).tapLow
  pool := Pool.reset
  qe := qe
  pending := s.pending

/-- A soft reset keeps the four base and size registers (R162). -/
def State.softReset (s : State) : State :=
  s.resetBlocks (Qe.atReset s.qe.cmdBase s.qe.cmdSize s.qe.rptBase s.qe.rptSize)

/-- POWER_ON_RESET: RESET# goes low and holds every block (R1, R162). -/
def execPowerOnReset (s : State) : Host.Outcome State Fault Refusal :=
  .next { s.resetBlocks (Qe.atReset 0 0 0 0) with resetLow := true }

/-- RESET_RELEASE: RESET# returns high and the blocks begin to run (R1). -/
def execResetRelease (s : State) : Host.Outcome State Fault Refusal := .next { s with resetLow := false }

/-- SOFT_RESET (R162). -/
def execSoftReset (s : State) : Host.Outcome State Fault Refusal := event s State.softReset

/-! ### CTRL (R159 to R161) -/

/-- QE enters HALTED with a cause, INT.ERROR is set, and a held entry is discarded (R163, R169, R170, R171). -/
def Qe.halt (q : Qe) (cause : HaltCause) : Qe :=
  { q with engine := .halted, cause := cause, intError := true, held := none }

/-- The ring setup an enable checks (R160). -/
def Qe.setupOk (q : Qe) : Bool := ringOk q.cmdBase q.cmdSize && ringOk q.rptBase q.rptSize

/-- The summaries that wait are drained as long as there is room (R168). -/
def State.drainAll : Nat → State → State
  | 0, s => s
  | n + 1, s => s.drainSummary.drainAll n
termination_by structural n => n

/-- A write of 1 to ENABLE (R160). A ring access of an earlier run that has not finished is given up (entry 13). -/
def State.writeEnable (s : State) : State :=
  if s.qe.enable then s
  else if s.qe.setupOk then
    (s.modQe fun q =>
      { q with
        enable := true, engine := .running, cause := .none, cmdHead := 0, cmdTail := 0, rptHead := 0, rptTail := 0
        sequence := 0, fetching := false, writing := false }).drainAll 8
  else s.modQe fun q => { q with engine := .stopped, cause := .config, intError := true }

/-- A write of 0 to ENABLE while it reads 1, or in HALTED (R161): QE enters STOPPED and discards a held entry. A ring access in
progress is finished by its own command (entry 13). -/
def State.writeDisable (s : State) : State :=
  if s.qe.enable || s.qe.engine = .halted then
    s.modQe fun q => { q with enable := false, engine := .stopped, held := none }
  else s

/-- The interrupt enables of a CTRL write are stored at once (R159). -/
def State.storeIe (s : State) (reportIe errorIe : Bool) : State :=
  s.modQe fun q => { q with reportIe := reportIe, errorIe := errorIe }

/-- A write of CTRL: SOFT_RESET alone where it is set, else the interrupt enables and then ENABLE (R159). -/
def State.writeCtrl (s : State) (v : Word32) : State :=
  if v.getLsbD 1 then s.softReset
  else
    let s := s.storeIe (v.getLsbD 2) (v.getLsbD 3)
    if v.getLsbD 0 then s.writeEnable else s.writeDisable

/-- ENABLE: a CTRL write with ENABLE 1 and the interrupt enables given (R159, R160). -/
def execEnable (reportIe errorIe : Bool) (s : State) : Host.Outcome State Fault Refusal :=
  event s fun s => (s.storeIe reportIe errorIe).writeEnable

/-- DISABLE: a CTRL write with ENABLE 0 and the interrupt enables given (R159, R161). -/
def execDisable (reportIe errorIe : Bool) (s : State) : Host.Outcome State Fault Refusal :=
  event s fun s => (s.storeIe reportIe errorIe).writeDisable

/-! ### INT, the indices, and the other registers -/

/-- A write of INT: a 1 clears its bit, a 0 leaves it (R171). -/
def State.writeInt (s : State) (v : Word32) : State :=
  s.modQe fun q =>
    { q with intReport := q.intReport && !v.getLsbD 0, intError := q.intError && !v.getLsbD 1 }

/-- INT_CLEAR (R171). -/
def execIntClear (value : Word32) (s : State) : Host.Outcome State Fault Refusal :=
  event s fun s => s.writeInt value

/-- A write of CMD_TAIL: in RUNNING stored below the ring size, else QE halts; in STOPPED and HALTED ignored (R159, R169). -/
def State.writeCmdTail (s : State) (v : Word32) : State :=
  if s.qe.engine = .running then
    if v.toNat < s.qe.cmdSize.toNat then s.modQe fun q => { q with cmdTail := v }
    else s.modQe fun q => q.halt .cmdIndex
  else s

/-- CMD_TAIL_WRITE (R169). -/
def execCmdTailWrite (value : Word32) (s : State) : Host.Outcome State Fault Refusal :=
  event s fun s => s.writeCmdTail value

/-- A write of RPT_HEAD: in RUNNING stored below the ring size, else QE halts; in STOPPED and HALTED ignored (R159, R169). -/
def State.writeRptHead (s : State) (v : Word32) : State :=
  if s.qe.engine = .running then
    if v.toNat < s.qe.rptSize.toNat then s.modQe fun q => { q with rptHead := v }
    else s.modQe fun q => q.halt .rptIndex
  else s

/-- RPT_HEAD_WRITE (R169). -/
def execRptHeadWrite (value : Word32) (s : State) : Host.Outcome State Fault Refusal :=
  event s fun s => s.writeRptHead value

/-- A base or size register is stored while ENABLE reads 0 and ignored while it reads 1 (R159). -/
def State.writeSetup (s : State) (f : Qe → Qe) : State := if s.qe.enable then s else s.modQe f

/-- A word written at an offset of the window (R159; 11, Register Window); read-only registers, gaps and offsets that are not a
register's ignore it (R178). -/
def State.writeReg (s : State) (offset : Nat) (v : Word32) : State :=
  match offset with
  | 0x04 => s.writeCtrl v
  | 0x0C => s.writeInt v
  | 0x10 => s.writeSetup fun q => { q with cmdBase := v }
  | 0x14 => s.writeSetup fun q => { q with cmdSize := v }
  | 0x18 => s.writeCmdTail v
  | 0x20 => s.writeSetup fun q => { q with rptBase := v }
  | 0x24 => s.writeSetup fun q => { q with rptSize := v }
  | 0x28 => s.writeRptHead v
  | _ => s

/-- REGISTER_WRITE (R159); a write narrower than a word is ignored (R178). -/
def execRegisterWrite (offset : BitVec 6) (width : AccessWidth) (value : Word32) (s : State) :
    Host.Outcome State Fault Refusal :=
  match width with
  | .word => event s fun s => s.writeReg offset.toNat value
  | .byte => .next s
  | .half => .next s

end Sys2Proof.Machine
end

