-- ==== Sys2Proof/Machine/Rings.lean ====
section
/-! DEFINITION. The ends of QE's ring accesses (R163 to R165, R170) and the taking of a held entry (R163). -/

namespace Sys2Proof.Machine

open Sys2Proof

/-- QE takes an entry: CMD_HEAD advances, by the ring size as it is now (entry 41), and the command goes to its owner in the
same event (R141, R163). -/
def State.takeEntry (s : State) (e : List Byte) : State :=
  let s := s.modQe fun q => { q with cmdHead := nextIndex q.cmdHead q.cmdSize, held := none }
  match decodeEntry e with
  | some c => s.takeHost c
  | none => s.takeUnknown (entryTag e) (entryCode e) (entryPort e)

/-- A ring read completes (R163): the entry is taken where the admission test passes, held in RUNNING where it fails, and
discarded where QE has left RUNNING (R161). -/
def State.fetched (s : State) (e : List Byte) : State :=
  let s := s.modQe fun q => { q with fetching := false }
  if s.qe.admits (entryCode e) then s.takeEntry e
  else if s.qe.engine = .running then s.modQe fun q => { q with held := some e }
  else s

/-- COMMAND_FETCH (R163); without a read in progress there is nothing to complete (entry 4). -/
def execCommandFetch (entry : List Byte) (s : State) : Host.Outcome State Fault Refusal :=
  if s.qe.fetching then event s fun s => s.fetched entry else .next s

/-- The held entry passes its admission test (R163, R164). -/
def Qe.heldReady (q : Qe) : Bool :=
  match q.held with
  | some e => q.engine = .running && q.admits (entryCode e)
  | none => false

/-- HELD_ENTRY_TAKE (R163). -/
def execHeldEntryTake (s : State) : Host.Outcome State Fault Refusal :=
  match s.qe.held with
  | some e => if s.qe.heldReady then event s fun s => s.takeEntry e else .next s
  | none => .next s

/-- A bus error halts QE (R170). From RUNNING the other access in progress is given up (entry 14). DESIGN CHOICE: the cause of
an earlier halt is overwritten (entry 42). -/
def Qe.busError (q : Qe) (cause : HaltCause) : Qe :=
  (if q.engine = .running then { q with fetching := false, writing := false } else q).halt cause

/-- COMMAND_FETCH_BUS_ERROR (R170). -/
def execCommandFetchBusError (s : State) : Host.Outcome State Fault Refusal :=
  if s.qe.fetching then event s fun s => s.modQe fun q => { q.busError .fetchBus with fetching := false }
  else .next s

/-- The write of the backlog head completes (R165 steps 1 to 5). DESIGN CHOICE: with the base and size registers as they are
at its end, also where they were rewritten while it was in progress (R161, entry 41). -/
def State.reportWritten (s : State) : State :=
  match s.qe.backlog with
  | r :: rest =>
    (s.modQe fun q =>
      { q with
        writing := false
        backlog := rest
        lastWrite := some (entryAddress q.rptBase q.rptTail, r.encode q.sequence)
        rptTail := nextIndex q.rptTail q.rptSize
        sequence := q.sequence + 1
        intReport := true }).drainSummary
  | [] => s.modQe fun q => { q with writing := false }

/-- REPORT_WRITE (R165). -/
def execReportWrite (s : State) : Host.Outcome State Fault Refusal :=
  if s.qe.writing then event s State.reportWritten else .next s

/-- REPORT_WRITE_BUS_ERROR (R170). -/
def execReportWriteBusError (s : State) : Host.Outcome State Fault Refusal :=
  if s.qe.writing then event s fun s => s.modQe fun q => { q.busError .writeBus with writing := false }
  else .next s

end Sys2Proof.Machine
end

