-- ==== Sys2Proof/Machine/Presence.lean ====
section
/-! DEFINITION. The Sense Units' events (R40 to R44, R55 to R58) and the ends of the clear rest (R61) and of the fault cooldown
(R59). -/

namespace Sys2Proof.Machine

open Sys2Proof

/-- A band change acted on by the SU's mode (R41 to R43, R55, R57). -/
def State.bandChanged (s : State) (p : PortNo) (band : Band) : State :=
  let was := (s.sense p).band.present
  let s := s.modSense p fun u => { u with band := band }
  match (s.sense p).mode with
  | .disabled => s
  | .watch => if band.present then s.enterSensing p else s
  | .debounce => if band.present then s.enterSensing p else s.enterVacant p
  | .attached =>
    if band.present then s.modSense p fun u => { u with detachTimer := none }
    else if was then s.modSense p fun u => { u with detachTimer := some Config.detachDebounce }
    else s

/-- PRESENCE_BAND_CHANGE (R41). The band follows the input while RESET# is low too (entry 7); the band the input already lies
in is no change. -/
def execPresenceBandChange (port : PortNo) (band : Band) (s : State) : Host.Outcome State Fault Refusal :=
  if (s.sense port).band = band then .next s
  else if s.resetLow then .next (s.modSense port fun u => { u with band := band })
  else event s fun s => s.bandChanged port band

/-- The attach debounce concludes with class c (R44): class and floor, ATTACHED mode, notice ATTACH, and the floor request,
answered by the pass (R25). -/
def State.attached (s : State) (p : PortNo) : State :=
  let cls := (s.sense p).band.cls
  let s := s.modSense p fun u => { u with mode := .attached, attachTimer := none, detachTimer := none, detachReported := false }
  let s := s.modEntry p fun e => { e with state := .starved, cls := cls, floor := cls.floor }
  let s := s.notice p (.attach cls)
  let e := s.entry p
  let s := (s.modPool fun b => b.addEntry p .floor e.floor e.policy.priority).runPass
  if (s.entry p).state = .starved then s.notice p (.starved cls cls.floor) else s

/-- The attach debounce runs with the input in a class band (R43). -/
def SenseUnit.debouncing (u : SenseUnit) : Bool := u.mode = .debounce && u.attachTimer.isSome && u.band.present

/-- ATTACH (R44). -/
def execAttach (port : PortNo) (s : State) : Host.Outcome State Fault Refusal :=
  if (s.sense port).debouncing && (s.entry port).state = .sensing then event s fun s => s.attached port else .next s

/-- LC takes the SU's detach report (R57). -/
def State.detached (s : State) (p : PortNo) : State :=
  let s := s.modSense p fun u => { u with detachTimer := none }
  match (s.entry p).state with
  | .powering | .starved | .powered | .claiming | .cutting | .clearing => s.teardown p .detach none
  | .faulted => (s.modSense p fun u => { u with detachReported := true }).notice p .detach
  | .off | .vacant | .sensing => s

/-- DETACH (R55, R57). -/
def execDetach (port : PortNo) (s : State) : Host.Outcome State Fault Refusal :=
  if (s.sense port).detachTimer.isSome then event s fun s => s.detached port else .next s

/-- A raw level change of PFLT starts the filter, or cancels it where the level is again the sampled one (R56). -/
def SenseUnit.faultChanged (u : SenseUnit) (asserted : Bool) : SenseUnit :=
  { u with fault := asserted, filter := if asserted = u.sampled then none else some Config.faultFilter }

/-- FAULT_INPUT_CHANGE (R56). While RESET# is low the sampled state follows the input (entries 7 and 9). -/
def execFaultInputChange (port : PortNo) (asserted : Bool) (s : State) : Host.Outcome State Fault Refusal :=
  if (s.sense port).fault = asserted then .next s
  else if s.resetLow then .next (s.modSense port fun u => { u with fault := asserted, sampled := asserted, filter := none })
  else event s fun s => s.modSense port fun u => u.faultChanged asserted

/-- The filtered level is taken; asserted while PEN is on it is reported (R56, R58). -/
def State.faultFiltered (s : State) (p : PortNo) : State :=
  let s := s.modSense p fun u => { u with sampled := u.fault, filter := none }
  if (s.sense p).sampled && (s.power p).pen then s.faultAssert p else s

/-- FAULT_INPUT_FILTERED (R56). -/
def execFaultInputFiltered (port : PortNo) (s : State) : Host.Outcome State Fault Refusal :=
  if (s.sense port).filter.isSome then event s fun s => s.faultFiltered port else .next s

/-- The port is sensed again, or is VACANT, with notice DETACH unless a detach was already reported (R59, R61). -/
def State.resense (s : State) (p : PortNo) : State :=
  if (s.sense p).band.present then s.enterSensing p
  else
    let told := (s.sense p).detachReported
    let s := s.enterVacant p
    if told then s else s.notice p .detach

/-- The clear rest ends (R61): the port leaves CLEARING, so its line clear detector goes off (R83). -/
def State.restEnded (s : State) (p : PortNo) : State :=
  ((s.modEntry p fun e => { e with clearRest := none }).modTle p fun t =>
    { t with detector := false, lowLeft := none }).resense p

/-- CLEAR_REST_END (R61). -/
def execClearRestEnd (port : PortNo) (s : State) : Host.Outcome State Fault Refusal :=
  if (s.entry port).state = .clearing && (s.entry port).clearRest.isSome then event s fun s => s.restEnded port else .next s

/-- The fault cooldown ends (R59): it restarts while the sampled fault input is asserted. -/
def State.cooldownEnded (s : State) (p : PortNo) : State :=
  if (s.sense p).sampled then s.modEntry p fun e => { e with cooldown := some e.policy.cooldownTime }
  else (s.modEntry p fun e => { e with cooldown := none }).resense p

/-- FAULT_COOLDOWN_END (R59). -/
def execFaultCooldownEnd (port : PortNo) (s : State) : Host.Outcome State Fault Refusal :=
  if (s.entry port).state = .faulted && (s.entry port).cooldown.isSome then event s fun s => s.cooldownEnded port
  else .next s

end Sys2Proof.Machine
end

