-- ==== Sys2Proof/Machine/Power.lean ====
section
/-! DEFINITION. PSI's events: a limit write made (R46 to R49, R52) and a settle that expires (R47). -/

namespace Sys2Proof.Machine

open Sys2Proof

/-- What a made write does (R46 to R49, R52): a raise sets the applied level and starts the settle, and at a power-up
turns PEN on, when the SU examines the fault input (R56); a lowering write is reported to LC; a write of 0 and one
voided by a teardown do nothing. -/
def State.writeMade (s : State) (t : Transfer) : State :=
  if t.void then s
  else match t.write.dir with
    | .raise =>
      let s := s.modPower t.port fun x => { x with applied := t.write.value, settle := some Config.settleTime }
      if (s.entry t.port).state = .powering then
        let s := s.modPower t.port fun x => { x with pen := true }
        if (s.sense t.port).sampled then s.faultAssert t.port else s
      else s
    | .lower => (s.modPower t.port fun x => { x with applied := t.write.value }).lowered t.port
    | .teardown => s

/-- The end of a transfer, and the next write of the service list (R46). -/
def State.transferEnded (s : State) (t : Transfer) : State :=
  ((s.writeMade t).modPsi fun b => { b with transfer := none }).startTransfer

/-- LIMIT_WRITE_MADE (R46). -/
def execLimitWriteMade (s : State) : Host.Outcome State Fault Refusal :=
  match s.psi.transfer with
  | some t => event s fun s => s.transferEnded t
  | none => .next s

/-- The settle timer expires (R47). -/
def State.settleEnded (s : State) (p : PortNo) : State :=
  (s.modPower p fun x => { x with settle := none }).settledReport p

/-- SETTLED (R47). -/
def execSettled (port : PortNo) (s : State) : Host.Outcome State Fault Refusal :=
  if (s.power port).settle.isSome then event s fun s => s.settleEnded port else .next s

end Sys2Proof.Machine
end

