-- ==== Sys2Proof/Machine/Tap.lean ====
section
/-! DEFINITION. The Tap Link Engines' events (R62 to R84). -/

namespace Sys2Proof.Machine

open Sys2Proof

/-! ### Reception (R66 to R70) -/

/-- The receiver begins to collect: it is on, the part is not sending, and it is not ignoring the line (R66); or the echo of an
EXTERNAL link test begins (R176). -/
def Tle.mayReceive (t : Tle) : Bool :=
  !t.receiving
    && (match t.test with
        | some x =>
          match x.mode, x.phase with
          | .external, .sent _ => true
          | _, _ => false
        | none => t.receiver && t.line.isNone && !t.ignoring)

/-- FRAME_START (R66): the receiver has taken a low of 40 us behind at least 8 one-cells as a start (R63, afterStart). -/
def execFrameStart (port : PortNo) (s : State) : Host.Outcome State Fault Refusal :=
  if (s.tle port).mayReceive then event s fun s => s.modTle port fun t => { t with receiving := true, guard := 0 }
  else .next s

/-- A matching ACK (R80): the sequence advances, the window stops, and LC takes the outcome. -/
def State.acknowledged (s : State) (p : PortNo) (a : Awaited) : State :=
  let s := s.modTle p fun t =>
    { t with awaiting := none, window := none, retries := 0, retransmit := false, txSeq := t.txSeq + 1 }
  match a.item.frame with
  | .grant _ _ _ _ => s.startLease p
  | .note order _ bytes => s.complete order .ok [byteOf bytes.length]
  | _ => s

/-- A good ACK received (R70). -/
def State.ackReceived (s : State) (p : PortNo) (seq : BitVec 4) : State :=
  match (s.tle p).awaiting with
  | some a =>
    if a.seq = seq then s.acknowledged p a
    else s.count p fun c => { c with malformed := bump c.malformed }
  | none => s.count p fun c => { c with malformed := bump c.malformed }

/-- A good frame that owes an ACK: a duplicate is acknowledged alone, a new frame is delivered too (R69). -/
def State.goodFrame (s : State) (p : PortNo) (kind : FrameKind) (seq : BitVec 4) (payload : List Byte) : State :=
  let duplicate := (s.tle p).lastRx = some (seq, kind)
  let s := s.modTle p fun t => { t.oweAck seq with lastRx := some (seq, kind) }
  if duplicate then s.count p fun c => { c with duplicates := bump c.duplicates } else s.deliver p kind payload

/-- What the engine does with a reception (R66 to R70, R173). -/
def State.received (s : State) (p : PortNo) (bytes : List Byte) : State :=
  match readReception bytes with
  | .broken _ => s.count p fun c => { c with crcErrors := bump c.crcErrors }
  | .badCrc _ => s.count p fun c => { c with crcErrors := bump c.crcErrors }
  | .overLength =>
    (s.modTle p fun t => { t with ignoring := true }).count p fun c => { c with malformed := bump c.malformed }
  | .whole code seq payload =>
    match goodKind code payload.length with
    | none => s.count p fun c => { c with malformed := bump c.malformed }
    | some kind =>
      let s := s.count p fun c => { c with goodFrames := bump c.goodFrames }
      if kind = .ack then s.ackReceived p seq else s.goodFrame p kind seq payload

/-! ### The ACK window (R79) -/

/-- The window has run out without an acknowledgment: a retransmission is ordered, or the link is lost (R79). -/
def State.windowOut (s : State) (p : PortNo) : State :=
  let s := s.modTle p fun t => { t with window := none }
  match (s.tle p).awaiting with
  | some a =>
    if (s.tle p).retries < (s.entry p).policy.retryLimit then
      (s.modTle p fun t => { t with retries := t.retries + 1, retransmit := true }).count p fun c =>
        { c with retries := bump c.retries }
    else
      (s.modTle p fun t => { t with awaiting := none, retransmit := false }).linkLoss p a.item.frame
  | none => s

/-- ACK_WINDOW_EXPIRY (R79): while a frame is being received the window runs out at the end of that reception. -/
def execAckWindowExpiry (port : PortNo) (s : State) : Host.Outcome State Fault Refusal :=
  if (s.tle port).window.isSome then
    event s fun s =>
      if (s.tle port).receiving then s.modTle port fun t => { t with window := some 0 } else s.windowOut port
  else .next s

/-- A reception ends (R66), and with it, as an event of its own, a window that ran out during it (R79, entry 10). -/
def State.receptionEnded (s : State) (p : PortNo) (bytes : List Byte) : State :=
  let late := (s.tle p).window = some 0
  let s := s.modTle p fun t => { t with receiving := false, guard := 0 }
  let s := s.received p bytes
  if late && (s.tle p).window = some 0 then s.conclude.windowOut p else s

/-- FRAME_RECEIVED (R66); without a reception in progress nothing ends (entry 22). -/
def execFrameReceived (port : PortNo) (bytes : List Byte) (s : State) : Host.Outcome State Fault Refusal :=
  if (s.tle port).receiving && (s.tle port).test.isNone then event s fun s => s.receptionEnded port bytes else .next s

/-! ### Sending (R73 to R78) -/

/-- The engine may begin: nothing is on the line, the line is high, and nothing is being received (R73). -/
def Tle.lineFree (t : Tle) : Bool := t.line.isNone && t.guardRuns

/-- The transmission that begins: an EXTERNAL test frame, or the eligible frame; a frame leaves the queue when it begins (R71,
R73, R176). -/
def Tle.beginSending (t : Tle) : Tle :=
  match t.test with
  | some x =>
    if x.phase = .waiting then
      { t with test := some { x with phase := .sending (lineTime x.pattern.length) }, guard := 0, ignoring := false }
    else t
  | none =>
    match t.eligible with
    | some (x, again) =>
      let seq :=
        match t.awaiting with
        | some a => if again then a.seq else t.txSeq
        | none => t.txSeq
      { t with
        line := some (.frame x seq again x.frame.time)
        queue := if again then t.queue else t.queue.tail
        guard := 0
        ignoring := false }
    | none => t

/-- There is something to send (R73, R176). -/
def Tle.canSend (t : Tle) : Bool :=
  match t.test with
  | some x => x.phase = .waiting
  | none => t.eligible.isSome

/-- The idle guard is complete, the line is still high, and there is something to send (R73). -/
def Tle.mayBegin (t : Tle) : Bool := t.guard = Config.idleGuard && t.lineFree && t.canSend

/-- TRANSMIT_BEGIN (R73). -/
def execTransmitBegin (port : PortNo) (s : State) : Host.Outcome State Fault Refusal :=
  if (s.tle port).mayBegin then event s fun s => s.modTle port Tle.beginSending else .next s

/-- A frame sent to its last cell (R74, R75): an ACK leaves the engine, another frame awaits acknowledgment and its window
starts. -/
def Tle.frameDone (t : Tle) (x : TxItem) (seq : BitVec 4) (again : Bool) : Tle :=
  let t := { t with line := none, guard := 0, counters := { t.counters with framesSent := bump t.counters.framesSent } }
  if x.frame.kind = .ack then t
  else
    { t with
      awaiting := some { item := x.frame.item, seq := seq }
      retransmit := false
      retries := if again then t.retries else 0
      window := some Config.ackWindow }

/-- A test frame sent to its last cell (R176). -/
def LinkTest.frameDone (x : LinkTest) : LinkTest :=
  match x.phase with
  | .sending _ => { x with phase := .sent 0 }
  | _ => x

/-- The test frame of a running link test is being sent (R176). -/
def Tle.testSending (t : Tle) : Bool :=
  match t.test with
  | some x =>
    match x.phase with
    | .sending _ => true
    | _ => false
  | none => false

/-- FRAME_SENT (R75, R176). A frame under which the line is held low is not sent to its last cell: a departure comes before its
end (R76, entry 4). The end of a test frame leaves the idle guard alone: an INTERNAL one leaves the line undriven, and
under an EXTERNAL one the guard has stood at 0 since its first low. -/
def execFrameSent (port : PortNo) (s : State) : Host.Outcome State Fault Refusal :=
  match (s.tle port).line with
  | some (.frame x seq again left) =>
    if (s.tle port).tapLow && left != 0 then .next s
    else event s fun s => s.modTle port fun t => t.frameDone x seq again
  | some (.clear _ _) => .next s
  | none =>
    if (s.tle port).testSending then
      event s fun s => s.modTle port fun t => { t with test := t.test.map LinkTest.frameDone }
    else .next s

/-- Where an abandoned frame goes (R71, R77). DESIGN CHOICE: an OFFER, CUT, GRANT or DENY goes back also where the newer
frames that wait fill the bound of R72 for its kind (entry 38). -/
def Tle.putBack (t : Tle) (x : TxItem) (again : Bool) : Tle :=
  if again then { t with awaiting := t.awaiting.map fun a => { a with item := x } }
  else if x.frame.kind = .ack then
    { t with queue := if queuedOf t.queue .ack = 0 then x :: t.queue else t.queue }
  else { t with queue := returnFrame x t.queue }

/-- A departure from the driven level (R76 to R78): the attempt is abandoned and counted, and the eighth in a row loses the
link. -/
def State.collided (s : State) (p : PortNo) (x : TxItem) (again : Bool) : State :=
  let x := { x with collisions := x.collisions + 1 }
  let s := s.modTle p fun t =>
    { t with line := none, guard := 0, counters := { t.counters with collisions := bump t.counters.collisions } }
  if x.collisions < Config.collisionLimit then s.modTle p fun t => t.putBack x again
  else
    (s.modTle p fun t => if again then { t with awaiting := none, retransmit := false } else t).linkLoss p x.frame

/-- COLLISION (R77): a low is read while the engine compares the line. A low in a start cell or in the low part of a cell
cannot be told apart from the part's own, and a line clear and a test frame are not examined (R76, R176). -/
def execCollision (port : PortNo) (s : State) : Host.Outcome State Fault Refusal :=
  match (s.tle port).line with
  | some (.frame x _ again _) => if (s.tle port).compares then event s fun s => s.collided port x again else .next s
  | some (.clear _ _) => .next s
  | none => .next s

/-! ### Line clears (R82 to R84) -/

/-- The command whose line clear was sent completes OK, if it is open: LINE_CLEAR with no result, PORT_DISABLE with the state
taken (R85, R152). -/
def State.clearDone (s : State) (order : Option Nat) : State :=
  match order with
  | some o =>
    match s.qe.slots.find? fun sl => sl.order == o with
    | some sl => s.complete o .ok sl.tearResult
    | none => s
  | none => s

/-- The release at the end of a line clear (R82); a low still held is measured from the release (R83). -/
def State.clearReleased (s : State) (p : PortNo) (order : Option Nat) : State :=
  (s.modTle p fun t =>
    { t with
      line := none, guard := 0
      lowLeft := if t.tapLow && t.detector then some Config.clearDetectTime else none }).clearDone order

/-- CLEAR_SENT (R82). -/
def execClearSent (port : PortNo) (s : State) : Host.Outcome State Fault Refusal :=
  match (s.tle port).line with
  | some (.clear order _) => event s fun s => s.clearReleased port order
  | some (.frame _ _ _ _) => .next s
  | none => .next s

/-- LC takes a received line clear (R84). DESIGN CHOICE: in CLEARING it runs no admission pass (entry 37). -/
def State.takeLineClearReceived (s : State) (p : PortNo) : State :=
  match (s.entry p).state with
  | .powered | .claiming | .cutting => s.teardown p .clearReceived none
  | .clearing =>
    (s.modEntry p fun e => { e with clearRest := some Config.clearRestTime }).completeBound p none .cleared
  | .off | .vacant | .sensing | .powering | .starved | .faulted => s

/-- A low that reaches 1.5 ms (R83): counted and reported once for the low period; a reception in progress is discarded
(R66). -/
def State.clearDetected (s : State) (p : PortNo) : State :=
  let s := s.modTle p fun t => { t with lowLeft := none, receiving := false }
  (s.count p fun c => { c with clearsReceived := bump c.clearsReceived }).takeLineClearReceived p

/-- LINE_CLEAR_RECEIVED (R83, R84). -/
def execLineClearReceived (port : PortNo) (s : State) : Host.Outcome State Fault Refusal :=
  if (s.tle port).detector && (s.tle port).lowLeft.isSome then event s fun s => s.clearDetected port else .next s

/-- A level change of the line (R73, R83): a low restarts the guard and, where the part does not cause it and the detector is
on, the measurement; a high ends the measurement. -/
def Tle.levelChanged (t : Tle) (low : Bool) : Tle :=
  { t with
    tapLow := low
    guard := 0
    lowLeft := if low && t.detector && !t.sendingClear then some Config.clearDetectTime else none }

/-- TAP_LEVEL_CHANGE (R73, R83). The line's level is followed while RESET# is low too (entry 7). -/
def execTapLevelChange (port : PortNo) (low : Bool) (s : State) : Host.Outcome State Fault Refusal :=
  if (s.tle port).tapLow = low then .next s
  else if s.resetLow then .next (s.modTle port fun t => { t with tapLow := low })
  else event s fun s => s.modTle port fun t => t.levelChanged low

end Sys2Proof.Machine
end

