-- ==== Sys2Proof/Machine/Timers.lean ====
section
/-! DEFINITION. The timers of the lease, claim and cut records that run out (R37, R97, R109, R117). -/

namespace Sys2Proof.Machine

open Sys2Proof

/-- An event waits at LC while it lowers the port, else it is taken (R119). -/
def State.orWait (s : State) (p : PortNo) (w : Waiting) : State :=
  if (s.entry p).lowering.isSome then s.modEntry p fun e => { e with waiting := e.waiting ++ [w] }
  else s.takeWaiting p w

/-- The port's lease timer runs (R11). -/
def Entry.leaseRuns (e : Entry) : Bool :=
  match e.lease with
  | some l => l.running
  | none => false

/-- A lease's time remaining reaches 0; the timer stops there (R109). -/
def State.leaseOut (s : State) (p : PortNo) : State :=
  (s.modEntry p fun e => { e with lease := e.lease.map fun l => { l with remaining := 0, running := false } }).orWait p
    .leaseExpiry

/-- LEASE_EXPIRY (R109). -/
def execLeaseExpiry (port : PortNo) (s : State) : Host.Outcome State Fault Refusal :=
  if (s.entry port).leaseRuns then event s fun s => s.leaseOut port else .next s

/-- The port's claim is in this phase with its timer running (R12). -/
def Entry.claimTimes (e : Entry) (phase : ClaimPhase) : Bool :=
  match e.claim with
  | some c => c.phase = phase && c.timer.isSome
  | none => false

/-- DECISION_WINDOW_EXPIRY (R97): the claim is denied NO_DECISION. -/
def execDecisionWindowExpiry (port : PortNo) (s : State) : Host.Outcome State Fault Refusal :=
  if (s.entry port).claimTimes .awaitHost then event s fun s => s.endClaim port .noDecision true else .next s

/-- WAIT_LIMIT_EXPIRY (R37): the entry is removed, the claim is denied NO_BUDGET, and a pass runs. -/
def execWaitLimitExpiry (port : PortNo) (s : State) : Host.Outcome State Fault Refusal :=
  if (s.entry port).claimTimes .awaitBudget then event s fun s => s.expireClaim port else .next s

/-- The port's cut deadline runs (R13). -/
def Entry.cutRuns (e : Entry) : Bool :=
  match e.cut with
  | some c => c.running
  | none => false

/-- A cut's deadline remaining reaches 0 (R117). -/
def State.deadlineOut (s : State) (p : PortNo) : State :=
  (s.modEntry p fun e => { e with cut := e.cut.map fun c => { c with deadline := 0, running := false } }).orWait p
    .cutDeadline

/-- CUT_DEADLINE (R117). -/
def execCutDeadline (port : PortNo) (s : State) : Host.Outcome State Fault Refusal :=
  if (s.entry port).cutRuns then event s fun s => s.deadlineOut port else .next s

end Sys2Proof.Machine
end

