-- ==== Sys2Proof/Machine/Diagnostics.lean ====
section
/-! DEFINITION. The end of a link test (R176, R177). -/

namespace Sys2Proof.Machine

open Sys2Proof

/-- The outcomes of a link test (11, Codes used in reports). -/
inductive TestOutcome where
  | same
  | noFrame
  | crcError
  | mismatch
deriving DecidableEq, Repr

/-- The outcome's code. -/
def TestOutcome.code : TestOutcome → Nat
  | .same => 0
  | .noFrame => 1
  | .crcError => 2
  | .mismatch => 3

/-- OK for a match, else LINK_FAULT (R176). -/
def TestOutcome.status : TestOutcome → Status
  | .same => .ok
  | .noFrame => .linkFault
  | .crcError => .linkFault
  | .mismatch => .linkFault

/-- The mode's code (11, Command Entry). -/
def TestMode.code : TestMode → Nat
  | .internal => 0
  | .external => 1

/-- Microseconds since the test frame's end (R176). DESIGN CHOICE: 0 for an INTERNAL reception that ends before the test
frame does (entry 27). -/
def LinkTest.elapsed (x : LinkTest) : Nat :=
  match x.phase with
  | .sent us => us
  | _ => 0

/-- What a reception shows of the loop, and the payload bytes received (R176). The sequence is not examined. -/
def LinkTest.judge (x : LinkTest) (bytes : List Byte) : TestOutcome × List Byte :=
  match readReception bytes with
  | .broken payload => (.crcError, payload)
  | .badCrc payload => (.crcError, payload)
  | .overLength => (.mismatch, [])
  | .whole code _ payload =>
    (if code = FrameKind.note.code && payload = x.pattern then .same else .mismatch, payload)

/-- The result of a link test (11, Completion results). -/
def LinkTest.result (x : LinkTest) (o : TestOutcome) (echo : Nat) (payload : List Byte) : List Byte :=
  [byteOf x.mode.code, byteOf o.code] ++ le16 echo ++ [byteOf payload.length] ++ payload.take 16

/-- The test ends: the line is released, the receiver off, the timer stopped, and the command completes if it is still
open (R176, R177). The idle guard goes on as the line gives it (R73). -/
def State.endTest (s : State) (p : PortNo) (x : LinkTest) (o : TestOutcome) (echo : Nat) (payload : List Byte) : State :=
  (s.modTle p fun t => { t with test := none, receiving := false }).complete x.order o.status
    (x.result o echo payload)

/-- The reception of a test may end: in INTERNAL mode the frame goes straight to the receiver; in EXTERNAL mode the echo is
being collected (R176, entry 27). -/
def Tle.testReceives (t : Tle) (x : LinkTest) : Bool :=
  match x.mode with
  | .internal => true
  | .external => t.receiving

/-- LINK_TEST_RECEPTION (R176). -/
def execLinkTestReception (port : PortNo) (bytes : List Byte) (s : State) : Host.Outcome State Fault Refusal :=
  match (s.tle port).test with
  | some x =>
    if (s.tle port).testReceives x then
      event s fun s => s.endTest port x (x.judge bytes).1 x.elapsed (x.judge bytes).2
    else .next s
  | none => .next s

/-- LINK_TEST_TIMEOUT (R176): a reception in progress is abandoned, outcome no frame. -/
def execLinkTestTimeout (port : PortNo) (s : State) : Host.Outcome State Fault Refusal :=
  match (s.tle port).test with
  | some x => event s fun s => s.endTest port x .noFrame 0 []
  | none => .next s

end Sys2Proof.Machine
end

