-- ==== Sys2Proof/Machine/Dispatch.lean ====
section
/-! DEFINITION. The effect of each command, one arm for each row of spec/opcode_table.json. -/

namespace Sys2Proof.Machine

def exec (i : Instr) (s : State) : Host.Outcome State Fault Refusal :=
  match i with
  | .powerOnReset => Sys2Proof.Machine.execPowerOnReset s
  | .resetRelease => Sys2Proof.Machine.execResetRelease s
  | .softReset => Sys2Proof.Machine.execSoftReset s
  | .enable reportIe errorIe => Sys2Proof.Machine.execEnable reportIe errorIe s
  | .disable reportIe errorIe => Sys2Proof.Machine.execDisable reportIe errorIe s
  | .intClear value => Sys2Proof.Machine.execIntClear value s
  | .cmdTailWrite value => Sys2Proof.Machine.execCmdTailWrite value s
  | .rptHeadWrite value => Sys2Proof.Machine.execRptHeadWrite value s
  | .registerWrite offset width value => Sys2Proof.Machine.execRegisterWrite offset width value s
  | .commandFetch entry => Sys2Proof.Machine.execCommandFetch entry s
  | .heldEntryTake => Sys2Proof.Machine.execHeldEntryTake s
  | .commandFetchBusError => Sys2Proof.Machine.execCommandFetchBusError s
  | .reportWrite => Sys2Proof.Machine.execReportWrite s
  | .reportWriteBusError => Sys2Proof.Machine.execReportWriteBusError s
  | .configPort tag port fields => Sys2Proof.Machine.execConfigPort tag port fields s
  | .portEnable tag port => Sys2Proof.Machine.execPortEnable tag port s
  | .portDisable tag port => Sys2Proof.Machine.execPortDisable tag port s
  | .setBudget tag target preemption => Sys2Proof.Machine.execSetBudget tag target preemption s
  | .decide tag port claimTag verdict tier => Sys2Proof.Machine.execDecide tag port claimTag verdict tier s
  | .revoke tag port target override => Sys2Proof.Machine.execRevoke tag port target override s
  | .lineClear tag port => Sys2Proof.Machine.execLineClear tag port s
  | .relay tag port count bytes => Sys2Proof.Machine.execRelay tag port count bytes s
  | .queryPort tag port sect => Sys2Proof.Machine.execQueryPort tag port sect s
  | .queryPool tag => Sys2Proof.Machine.execQueryPool tag s
  | .queryLink tag port clear => Sys2Proof.Machine.execQueryLink tag port clear s
  | .linkTest tag port mode length pattern => Sys2Proof.Machine.execLinkTest tag port mode length pattern s
  | .sync tag => Sys2Proof.Machine.execSync tag s
  | .abort tag target => Sys2Proof.Machine.execAbort tag target s
  | .presenceBandChange port band => Sys2Proof.Machine.execPresenceBandChange port band s
  | .attach port => Sys2Proof.Machine.execAttach port s
  | .detach port => Sys2Proof.Machine.execDetach port s
  | .faultInputFiltered port => Sys2Proof.Machine.execFaultInputFiltered port s
  | .limitWriteMade => Sys2Proof.Machine.execLimitWriteMade s
  | .settled port => Sys2Proof.Machine.execSettled port s
  | .frameReceived port bytes => Sys2Proof.Machine.execFrameReceived port bytes s
  | .transmitBegin port => Sys2Proof.Machine.execTransmitBegin port s
  | .frameSent port => Sys2Proof.Machine.execFrameSent port s
  | .collision port => Sys2Proof.Machine.execCollision port s
  | .ackWindowExpiry port => Sys2Proof.Machine.execAckWindowExpiry port s
  | .clearSent port => Sys2Proof.Machine.execClearSent port s
  | .lineClearReceived port => Sys2Proof.Machine.execLineClearReceived port s
  | .leaseExpiry port => Sys2Proof.Machine.execLeaseExpiry port s
  | .decisionWindowExpiry port => Sys2Proof.Machine.execDecisionWindowExpiry port s
  | .waitLimitExpiry port => Sys2Proof.Machine.execWaitLimitExpiry port s
  | .cutDeadline port => Sys2Proof.Machine.execCutDeadline port s
  | .clearRestEnd port => Sys2Proof.Machine.execClearRestEnd port s
  | .faultCooldownEnd port => Sys2Proof.Machine.execFaultCooldownEnd port s
  | .linkTestReception port bytes => Sys2Proof.Machine.execLinkTestReception port bytes s
  | .linkTestTimeout port => Sys2Proof.Machine.execLinkTestTimeout port s
  | .faultInputChange port asserted => Sys2Proof.Machine.execFaultInputChange port asserted s
  | .tapLevelChange port low => Sys2Proof.Machine.execTapLevelChange port low s
  | .frameStart port => Sys2Proof.Machine.execFrameStart port s

end Sys2Proof.Machine
end

