-- ==== Sys2Proof/Machine/Timebase.lean ====
section
/-! DEFINITION. The Timebase (00_scope.md, Block Diagram): what a step does when no command waits. Time passes by one
microsecond, and a timer that has run out sends its own command (entries 2 and 3). -/

namespace Sys2Proof.Machine

open Sys2Proof

/-! ### One microsecond -/

/-- A running timer counts down and stands at 0. -/
def countDown (t : Option Nat) : Option Nat := t.map fun n => n - 1

/-- One microsecond of the Sense Unit's timers (R43, R55, R56). -/
def SenseUnit.tick (u : SenseUnit) : SenseUnit :=
  { u with
    attachTimer := countDown u.attachTimer
    detachTimer := countDown u.detachTimer
    filter := countDown u.filter }

/-- One microsecond of LC's timers for a port (R11, R12, R13, R59, R61). -/
def Entry.tick (e : Entry) : Entry :=
  { e with
    lease := e.lease.map fun l => if l.running then { l with remaining := l.remaining - 1 } else l
    claim := e.claim.map fun c => { c with timer := countDown c.timer }
    cut := e.cut.map fun c => if c.running then { c with deadline := c.deadline - 1 } else c
    clearRest := countDown e.clearRest
    cooldown := countDown e.cooldown }

/-- One microsecond on the limit bus and of the settle timers (R46, R47). -/
def Psi.tick (b : Psi) : Psi :=
  { b with
    ports := mapPorts fun p => { b.ports[p] with settle := countDown b.ports[p].settle }
    transfer := b.transfer.map fun t => { t with left := t.left - 1 } }

/-- One microsecond of what is on the line (R63, R82). -/
def LineUse.tick : LineUse → LineUse
  | .frame x seq again left => .frame x seq again (left - 1)
  | .clear order left => .clear order (left - 1)

/-- One microsecond of a link test (R176). -/
def LinkTest.tick (x : LinkTest) : LinkTest :=
  { x with
    timer := x.timer - 1
    phase :=
      match x.phase with
      | .waiting => .waiting
      | .sending left => .sending (left - 1)
      | .sent us => .sent (us + 1) }

/-- The idle guard after one more microsecond (R73). -/
def Tle.guardAfter (t : Tle) : Nat := if t.guardRuns then min Config.idleGuard (t.guard + 1) else t.guard

/-- One microsecond of a Tap Link Engine (R65, R66, R73, R79, R83). A complete guard ends the rest the receiver ignores
after an over-long length byte (entry 34). -/
def Tle.tick (t : Tle) : Tle :=
  { t with
    line := t.line.map LineUse.tick
    window := countDown t.window
    guard := t.guardAfter
    ignoring := t.ignoring && t.guardAfter != Config.idleGuard
    lowLeft := countDown t.lowLeft
    test := t.test.map LinkTest.tick }

/-- One microsecond of the part. -/
def State.tick (s : State) : State :=
  { s with
    entries := mapPorts fun p => (s.entry p).tick
    senses := mapPorts fun p => (s.sense p).tick
    psi := s.psi.tick
    tles := mapPorts fun p => (s.tle p).tick }

/-! ### What has run out -/

/-- A command that is due where a condition holds. -/
def dueIf (c : Bool) (i : Instr) : List Instr := if c then [i] else []

/-- LC's timers of a port that have run out (R37, R59, R61, R97, R109, R117). -/
def Entry.due (e : Entry) (p : PortNo) : List Instr :=
  dueIf (e.leaseRuns && (e.lease.map (·.remaining)) = some 0) (.leaseExpiry p)
    ++ dueIf (e.claimTimes .awaitHost && (e.claim.bind (·.timer)) = some 0) (.decisionWindowExpiry p)
    ++ dueIf (e.claimTimes .awaitBudget && (e.claim.bind (·.timer)) = some 0) (.waitLimitExpiry p)
    ++ dueIf (e.cutRuns && (e.cut.map (·.deadline)) = some 0) (.cutDeadline p)
    ++ dueIf (e.state = .clearing && e.clearRest = some 0) (.clearRestEnd p)
    ++ dueIf (e.state = .faulted && e.cooldown = some 0) (.faultCooldownEnd p)

/-- The Sense Unit's timers that have run out (R43, R55, R56). -/
def State.senseDue (s : State) (p : PortNo) : List Instr :=
  let u := s.sense p
  dueIf (u.debouncing && (s.entry p).state = .sensing && u.attachTimer = some 0) (.attach p)
    ++ dueIf (u.detachTimer = some 0) (.detach p)
    ++ dueIf (u.filter = some 0) (.faultInputFiltered p)

/-- The end of what is on the line (R75, R82), or a low that is held while the line is compared (R76). -/
def Tle.lineDue (t : Tle) (p : PortNo) : List Instr :=
  match t.line with
  | some (.frame _ _ _ left) => dueIf (left = 0) (.frameSent p) ++ dueIf (t.tapLow && t.compares) (.collision p)
  | some (.clear _ left) => dueIf (left = 0) (.clearSent p)
  | none => []

/-- The end of a link test's frame, of its loop inside the part (entry 27), or of its timer (R176). -/
def Tle.testDue (t : Tle) (p : PortNo) : List Instr :=
  match t.test with
  | some x =>
    (match x.mode, x.phase with
     | .internal, .sent _ => [.linkTestReception p (frameBytes .note 0 x.pattern)]
     | _, .sending left => dueIf (left = 0 && t.line.isNone) (.frameSent p)
     | _, _ => [])
    ++ dueIf (x.timer = 0) (.linkTestTimeout p)
  | none => []

/-- What is due at a Tap Link Engine (R73, R75, R79, R82, R83, R176). -/
def Tle.due (t : Tle) (p : PortNo) : List Instr :=
  t.lineDue p ++ t.testDue p
    ++ dueIf (t.window = some 0 && !t.receiving) (.ackWindowExpiry p)
    ++ dueIf (t.detector && t.lowLeft = some 0) (.lineClearReceived p)
    ++ dueIf t.mayBegin (.transmitBegin p)

/-- Everything that is due, in one fixed order: the limit bus, the held entry, then port by port (DESIGN CHOICE, entry 3). -/
def State.due (s : State) : List Instr :=
  dueIf ((s.psi.transfer.map (·.left)) = some 0) .limitWriteMade
    ++ dueIf s.qe.heldReady .heldEntryTake
    ++ allPorts.flatMap fun p =>
      dueIf ((s.power p).settle = some 0) (.settled p)
        ++ s.senseDue p ++ (s.entry p).due p ++ (s.tle p).due p

/-- An idle step (DESIGN CHOICE, entry 2): nothing while RESET# is low; else the first command that is due joins the queue;
where none is due, a microsecond passes. -/
def State.idle (s : State) : State :=
  if s.resetLow then s
  else match s.due with
    | c :: _ => { s with pending := s.pending ++ [c] }
    | [] => s.tick

end Sys2Proof.Machine
end

