-- ==== Sys2Proof/Machine/Step.lean ====
section
/-! DEFINITION. One step of the PL8: the command at the front of the queue, or an idle step. -/

namespace Sys2Proof.Machine

open Sys2Proof

/-- The command at the front of the queue is run on the state with the rest of the queue; on an empty queue the part idles
(entry 2). -/
def step (s : State) : Host.Outcome State Fault Refusal :=
  match s.pending with
  | c :: rest => exec c { s with pending := rest }
  | [] => .next s.idle

/-- The command a table word spells, put at the front of the queue. No row of the table gives bits, so no word spells one
and the state is unchanged (entry 6). -/
def State.withFetchWord (s : State) (nbits w : Nat) : State :=
  match decodeTableWord nbits w with
  | some c => { s with pending := c :: s.pending }
  | none => s

end Sys2Proof.Machine
end

