-- ==== Sys2Proof/Safety.lean ====
section
/-! DEFINITION. What holds of the PL8 between commands, in the terms the statements use. Each predicate is decidable;
those about one port are stated for every port. -/

namespace Sys2Proof.Machine

open Sys2Proof

/-! ### The states of a port (R14) -/

/-- The states in which a port holds units (R14, R56). -/
def PortState.supplied : PortState → Bool
  | .powering => true
  | .powered => true
  | .claiming => true
  | .cutting => true
  | .off => false
  | .vacant => false
  | .sensing => false
  | .starved => false
  | .clearing => false
  | .faulted => false

/-- The states in which a port's receiver is on (R66). -/
def PortState.linked : PortState → Bool
  | .powered => true
  | .claiming => true
  | .cutting => true
  | .off => false
  | .vacant => false
  | .sensing => false
  | .powering => false
  | .starved => false
  | .clearing => false
  | .faulted => false

/-! ### What a statement says is unchanged -/

/-- Nothing but QE differs: lease table, Sense Units, PSI, Tap Link Engines, pool. -/
abbrev State.samePorts (s t : State) : Prop :=
  t.entries = s.entries ∧ t.senses = s.senses ∧ t.psi = s.psi ∧ t.tles = s.tles ∧ t.pool = s.pool

/-- The other ports are as they were. -/
abbrev State.sameOthers (s t : State) (p : PortNo) : Prop :=
  ∀ q : PortNo, q ≠ p →
    t.entry q = s.entry q ∧ t.sense q = s.sense q ∧ t.power q = s.power q ∧ t.tle q = s.tle q

/-- QE's registers, indices, sequence, held entry and last write are as they were; its backlog, slots, summaries and
accesses may differ. -/
abbrev State.sameWindow (s t : State) : Prop :=
  { t.qe with
    backlog := s.qe.backlog, slots := s.qe.slots, nextOrder := s.qe.nextOrder, summaries := s.qe.summaries
    fetching := s.qe.fetching, writing := s.qe.writing, lastRead := s.qe.lastRead } = s.qe

/-- Backlog, slots, order numbers and summaries are as they were. -/
abbrev State.sameReports (s t : State) : Prop :=
  t.qe.backlog = s.qe.backlog ∧ t.qe.slots = s.qe.slots ∧ t.qe.nextOrder = s.qe.nextOrder
    ∧ t.qe.summaries = s.qe.summaries

/-- RESET# and the queue of commands are as they were. -/
abbrev State.sameRest (s t : State) : Prop := t.resetLow = s.resetLow ∧ t.pending = s.pending

/-- Nothing but QE's ring accesses may differ in QE; RESET# and the queue are as they were. -/
abbrev State.quiet (s t : State) : Prop := s.sameWindow t ∧ s.sameReports t ∧ s.sameRest t

/-- Nothing but one Tap Link Engine differs, and what QE's ring accesses are. -/
abbrev State.onlyTle (s t : State) (p : PortNo) : Prop :=
  t.entries = s.entries ∧ t.senses = s.senses ∧ t.psi = s.psi ∧ t.pool = s.pool
    ∧ (∀ q : PortNo, q ≠ p → t.tle q = s.tle q) ∧ s.quiet t

/-- Nothing but one Sense Unit differs, and what QE's ring accesses are. -/
abbrev State.onlySense (s t : State) (p : PortNo) : Prop :=
  t.entries = s.entries ∧ t.psi = s.psi ∧ t.tles = s.tles ∧ t.pool = s.pool
    ∧ (∀ q : PortNo, q ≠ p → t.sense q = s.sense q) ∧ s.quiet t

/-- One report is added at the back of the backlog and nothing else is done: no slot, no notice, no register. -/
abbrev State.onlyAnswers (s t : State) (r : Report) : Prop :=
  s.samePorts t ∧ s.sameWindow t ∧ s.sameRest t
    ∧ t.qe.backlog = s.qe.backlog ++ [r] ∧ t.qe.slots = s.qe.slots ∧ t.qe.summaries = s.qe.summaries

/-- The state after these notices of a port have been requested; `reserved` where the event is the taking of a
command, whose slot or reserved room counts (R164, R167). -/
def State.noticed (s : State) (reserved : Bool) (p : PortNo) (ns : List Notice) : State :=
  ns.foldl (fun s n => s.notice p n) (s.modQe fun q => { q with reserved := reserved })

/-- QE has been asked for these notices of a port and for these reports behind them, and for nothing else; the slots are
these. -/
abbrev State.told (s t : State) (reserved : Bool) (p : PortNo) (ns : List Notice) (rs : List Report) (slots : List Slot) :
    Prop :=
  t.qe.backlog = (s.noticed reserved p ns).qe.backlog ++ rs
    ∧ t.qe.summaries = (s.noticed reserved p ns).qe.summaries
    ∧ t.qe.slots = slots ∧ s.sameWindow t ∧ s.sameRest t

/-- PSI has been asked for a write: it is pending, or its transfer has just begun (R46). -/
abbrev State.writeAsked (t : State) (p : PortNo) (w : LimitWrite) : Prop :=
  (t.power p).pendingWrite = some w
    ∨ ((t.power p).pendingWrite = none ∧ t.psi.transfer = some { port := p, write := w, void := false, left := 32 })

/-- A transfer on the limit bus goes on, whether or not it has been voided, and the ports waiting keep their places. -/
abbrev State.busGoesOn (s t : State) : Prop :=
  s.psi.transfer.isSome = true →
    (t.psi.transfer.map fun x => (x.port, x.write, x.left)) = (s.psi.transfer.map fun x => (x.port, x.write, x.left))
      ∧ s.psi.service <+: t.psi.service

/-- No command is open that waits for others. -/
abbrev State.noSync (s : State) : Prop :=
  (s.qe.slots.all fun sl =>
    match sl.kind with
    | .sync _ _ => false
    | _ => true) = true

/-! ### The payload of a notice (11, Notice payloads and Codes used in reports) -/

/-- The class code. -/
def classByte : PowerClass → Byte
  | .none => 0
  | .one => 1
  | .two => 2
  | .three => 3

/-- The deny reason code (11, Tap Frame). -/
def reasonByte : DenyReason → Byte
  | .overOffer => 1
  | .noBudget => 2
  | .hostDenied => 3
  | .noDecision => 4
  | .busy => 5
  | .reducing => 6
  | .badTier => 7

/-- The cut cause code. -/
def causeByte : CutCause → Byte
  | .revoke => 1
  | .expiry => 2
  | .ceiling => 3
  | .preempt => 4
  | .shrink => 5

/-- The line clear cause code. -/
def clearByte : ClearCause → Byte
  | .received => 1
  | .linkLost => 2
  | .overdraw => 3
  | .host => 4

/-- The kind code of a frame (11, Tap Frame). -/
def kindByte : FrameKind → Byte
  | .ack => 0
  | .offer => 1
  | .grant => 2
  | .deny => 3
  | .cut => 4
  | .note => 7
  | .announce => 8
  | .claim => 9
  | .renew => 0xA
  | .release => 0xB
  | .done => 0xC

/-- The bytes of a notice from byte 8 on, by its kind. -/
def noticeBytes : Notice → List Byte
  | .attach cls => [classByte cls]
  | .detach => []
  | .starved cls floor => [classByte cls, byteOf floor]
  | .announced id k tiers => le32 id.toNat ++ [byteOf tiers.length, byteOf k] ++ tiers.flatMap le16
  | .claim tag tier units mcid ms => le16 tag.toNat ++ [byteOf tier] ++ le16 units ++ [mcid] ++ le16 ms
  | .claimDenied tag reason => le16 tag.toNat ++ [reasonByte reason]
  | .leaseChanged tier units => [byteOf tier] ++ le16 units
  | .leaseLapsed tier units => [byteOf tier] ++ le16 units
  | .cutForced old target cause => [byteOf old, byteOf target, causeByte cause]
  | .fault count => [byteOf count]
  | .lockout => []
  | .lineClear cause => [clearByte cause]
  | .linkLost kind => [kindByte kind]
  | .note bytes => [byteOf bytes.length] ++ bytes

/-! ### QE's rings (R160, R163 to R165) -/

/-- The codes of the commands that may be long (08, The Command Set). -/
def longCodes : List Byte := [0x03, 0x04, 0x06, 0x07, 0x08, 0x0C, 0x0D]

/-- The ring setup an enable asks for: both sizes a power of two from 16 to 1024, both bases a multiple of 32, both
rings within the 32-bit address space (R160). -/
abbrev Qe.ringSetup (q : Qe) : Prop :=
  (∃ k : Fin 7, q.cmdSize.toNat = 2 ^ (k.val + 4)) ∧ (∃ k : Fin 7, q.rptSize.toNat = 2 ^ (k.val + 4))
    ∧ q.cmdBase.toNat % 32 = 0 ∧ q.rptBase.toNat % 32 = 0
    ∧ q.cmdBase.toNat + 32 * q.cmdSize.toNat - 1 < 2 ^ 32 ∧ q.rptBase.toNat + 32 * q.rptSize.toNat - 1 < 2 ^ 32

/-- QE in RUNNING writes whenever it has a report and the report ring is not full, and reads whenever the command ring
is not empty and no entry is held (R163, R165). -/
abbrev Qe.accessesBegun (q : Qe) : Prop :=
  q.engine = .running →
    (q.backlog ≠ [] → (if q.rptTail + 1 = q.rptSize then 0 else q.rptTail + 1) ≠ q.rptHead → q.writing = true)
      ∧ (q.cmdHead ≠ q.cmdTail → q.held = none → q.fetching = true)

/-! ### The account, the floors, the counters (R3, R21, R172) -/

/-- Committed is the sum of the held units of the eight ports, and effective capacity the greater of target and
committed (R21). -/
abbrev State.accountsBalance (s : State) : Prop :=
  s.pool.committed = (allPorts.map fun p => (s.entry p).held).sum
    ∧ s.pool.effective = max s.pool.target s.pool.committed

/-- Floor is always the value the table of R3 gives for class. -/
abbrev State.floorsMatch (s : State) : Prop := ∀ p : PortNo, (s.entry p).floor = (s.entry p).cls.floor

/-- Every counter is within 0..65535 (R172). -/
def Counters.bounded (c : Counters) : Bool :=
  [c.framesSent, c.goodFrames, c.crcErrors, c.malformed, c.duplicates, c.retries, c.collisions, c.linkLosses, c.clearsSent
  , c.clearsReceived, c.protocolErrors, c.strikesTotal, c.notesDropped].all fun n => n ≤ Config.counterMax

/-- Link counters and notes-dropped counts stay within 16 bits (R168, R172). -/
abbrev State.countersBounded (s : State) : Prop :=
  ∀ p : PortNo, (s.tle p).counters.bounded = true ∧ (s.summary p).notesDropped ≤ Config.counterMax

/-! ### The wait list (R24, R29) -/

/-- No entry stands behind one that the keys of R29 put after it. -/
abbrev State.waitListSorted (s : State) : Prop := s.pool.waitList.Pairwise fun a b => b.before a = false

/-- The head of the wait list, if there is one, does not fit (R33). -/
abbrev State.headBlocked (s : State) : Prop := (s.pool.waitList.head?.all fun w => !s.pool.fits w) = true

/-! ### QE and BP between commands (R133, R143, R155, R166) -/

/-- Backlog occupancy plus open commands within 24, open commands within 8 (R166), and no room reserved (R167). -/
abbrev State.roomKept (s : State) : Prop :=
  s.qe.load ≤ Config.backlogSize ∧ s.qe.slots.length ≤ Config.slotCount ∧ s.qe.reserved = false

/-- A slot taken earlier than a number; a SYNC waits for something, and for what was taken earlier (R155). -/
def Slot.sound (sl : Slot) (next : Nat) : Bool :=
  sl.order < next
    && (match sl.kind with
        | .sync waitsFor _ => !waitsFor.isEmpty && waitsFor.all (· < next)
        | _ => true)

/-- The open slots stand in the order taken, each with an order number of its own (R143), all taken before the next
one. -/
abbrev State.slotsSound (s : State) : Prop :=
  (s.qe.slots.map fun sl => sl.order).Pairwise (· < ·) ∧ (s.qe.slots.all fun sl => sl.sound s.qe.nextOrder) = true

/-- The open SET_BUDGETs. -/
def Qe.openBudgets (q : Qe) : Nat := (q.slots.filter fun sl => sl.kind == .setBudget).length

/-- No order of BP is untaken, and a SET_BUDGET is open only during a shrink, one at most (R133, R140). -/
abbrev State.poolAtRest (s : State) : Prop :=
  s.pool.orders = [] ∧ s.qe.openBudgets ≤ 1 ∧ (s.pool.committed ≤ s.pool.target → s.qe.openBudgets = 0)

/-- Between commands: nothing half done in QE and BP. -/
abbrev State.atRest (s : State) : Prop := s.roomKept ∧ s.slotsSound ∧ s.poolAtRest

/-- RESET# is high and nothing is half done. -/
abbrev State.ready (s : State) : Prop := s.resetLow = false ∧ s.atRest

/-- A command may be taken for which the backlog has room (R164). -/
abbrev State.takes (s : State) : Prop := s.ready ∧ s.qe.backlog.length + s.qe.slots.length < 24

/-- A command of a code that may be long may be taken: an open slot is free as well (R164). -/
abbrev State.takesLong (s : State) : Prop := s.takes ∧ s.qe.slots.length < 8

/-- No other port waits for budget and no shrink is in progress, so that an event on this port concerns no other. -/
abbrev State.poolQuiet (s : State) (p : PortNo) : Prop :=
  (s.pool.waitList.all fun w => decide (w.port = p)) = true
    ∧ s.pool.effective = s.pool.target ∧ s.pool.committed ≤ s.pool.target

/-- The limit bus is idle only where no port waits for it, and each port with a pending write is listed once (R45,
R46). -/
abbrev State.busConsistent (s : State) : Prop :=
  s.psi.service.Nodup ∧ (s.psi.transfer = none → s.psi.service = [])
    ∧ ∀ p : PortNo, (p ∈ s.psi.service ↔ (s.power p).pendingWrite.isSome = true)

/-! ### The lease table against the blocks around it (R12, R13, R14, R28, R41, R66, R119) -/

/-- LC lowers a port only in POWERED (a release, an announcement's drop) or CUTTING (R119); the drop stands at tier 0
(R89). -/
def Entry.loweringFits (e : Entry) : Bool :=
  match e.lowering with
  | none => true
  | some .release => e.state = .powered
  | some (.drop _) => e.state = .powered && e.tier = 0
  | some .partialRelease => e.state = .cutting
  | some (.conclude _ _) => e.state = .cutting

/-- The claim waits for budget. -/
def Entry.waitsForBudget (e : Entry) : Bool := e.claim.any fun c => c.phase = .awaitBudget

/-- The records, the wait list, the SU mode, the receiver and the held units of one port agree with its state. -/
abbrev State.portConsistent (s : State) (p : PortNo) : Prop :=
  (s.entry p).claim.isSome = decide ((s.entry p).state = .claiming)
    ∧ (s.entry p).cut.isSome = decide ((s.entry p).state = .cutting)
    ∧ (s.entry p).loweringFits = true
    ∧ (s.pool.waitList.any fun w => w.port = p && w.kind = .floor) = decide ((s.entry p).state = .starved)
    ∧ (s.pool.waitList.any fun w => w.port = p && w.kind = .tier) = (s.entry p).waitsForBudget
    ∧ ((s.sense p).mode = .watch → (s.entry p).state = .vacant)
    ∧ ((s.sense p).mode = .debounce → (s.entry p).state = .sensing)
    ∧ ((s.tle p).receiver = true → (s.entry p).state.linked = true)
    ∧ ((s.tle p).receiving = true → (s.tle p).test = none → (s.tle p).receiver = true)
    ∧ ((s.entry p).state.supplied = false → (s.entry p).held = 0)

/-- Every port is consistent, and the wait list has at most one entry for a port (R28). -/
abbrev State.tableConsistent (s : State) : Prop :=
  (∀ p : PortNo, s.portConsistent p) ∧ (s.pool.waitList.map fun w => w.port).Nodup

/-! ### Leases and grants (R6, R11, R22) -/

/-- A tier above 0 has a lease record of that tier and a grant order record, and tier 0 has neither; a claim stands on
a tier above 0; a cut's target and a concluding tier are not above the tier in force. -/
abbrev State.leaseMatches (s : State) (p : PortNo) : Prop :=
  ((s.entry p).lease.map fun l => l.tier) = (if (s.entry p).tier = 0 then none else some (s.entry p).tier)
    ∧ (s.grantRecord p).isSome = decide (0 < (s.entry p).tier)
    ∧ ((s.entry p).claim.all fun c => decide (0 < c.standsOn)) = true
    ∧ ((s.entry p).cut.all fun c => decide (c.target ≤ (s.entry p).tier)) = true
    ∧ (match (s.entry p).lowering with
       | some (.conclude t _) => decide (t ≤ (s.entry p).tier)
       | _ => true) = true

/-- Leases and grant order records match the current tiers of all ports. -/
abbrev State.leasesMatch (s : State) : Prop := ∀ p : PortNo, s.leaseMatches p

/-! ### A port after a teardown (R15) -/

/-- With PEN off the applied level is 0 and no settle runs (R14, R49). -/
abbrev State.offWithoutPen (s : State) (p : PortNo) : Prop :=
  (s.power p).pen = false → s.applied p = 0 ∧ (s.power p).settle = none

/-- A port torn down into a state, from its entry (with the faults as counted) and its engine (with a line clear begun
in the same event): no units, no records, no power, an empty engine; policy, faults and link counters are kept (R15,
R16, R65). -/
abbrev State.tornDown (t : State) (p : PortNo) (e : Entry) (tle : Tle) (next : PortState) : Prop :=
  t.entry p =
      { e with
        state := next, cls := .none, floor := 0, held := 0, tier := 0, strikes := 0, lastDraw := none, module := none
        lease := none, claim := none, cut := none
        clearRest := if next = .clearing then some 500000 else none
        cooldown := if next = .faulted then some (e.policy.faultCooldown * 100000) else none
        lowering := none, waiting := [], deferredAnnounce := none, deferredCeiling := false }
    ∧ (t.power p).pen = false ∧ t.applied p = 0 ∧ (t.power p).settle = none
    ∧ t.tle p =
      { tle with
        queue := [], line := if tle.sendingClear then tle.line else none, awaiting := none, retransmit := false
        window := none, retries := 0, txSeq := 0, lastRx := none, guard := 0, receiver := false
        detector := decide (next = .clearing), receiving := false, ignoring := false, lowLeft := none }

/-- A teardown where nobody else waits: the port's units, entry and grant order record go, the write of 0 is asked for
where PEN was on, and no other port is touched. -/
abbrev State.tornDownAlone (s t : State) (p : PortNo) (e : Entry) (tle : Tle) (next : PortState) : Prop :=
  t.tornDown p e tle next
    ∧ t.pool =
      { s.pool with
        committed := s.pool.committed - (s.entry p).held, waitList := []
        grantOrder := s.pool.grantOrder.set p none }
    ∧ ((s.power p).pen = true → t.writeAsked p { value := 0, dir := .teardown })
    ∧ s.busGoesOn t ∧ s.sameOthers t p

/-- A FLOOR entry of another port has been admitted by the pass of an event: the port is POWERING with the need added to
its units, and a raising write of its floor is asked for (R33, R52). -/
abbrev State.powersUp (s t : State) (q : PortNo) (need : Nat) : Prop :=
  t.entry q = { s.entry q with state := .powering, held := (s.entry q).held + need }
    ∧ t.writeAsked q { value := (s.entry q).floor, dir := .raise }
    ∧ (t.power q).pen = (s.power q).pen ∧ t.applied q = s.applied q ∧ (t.power q).settle = (s.power q).settle
    ∧ t.tle q = s.tle q ∧ t.sense q = s.sense q

/-- Every port but two is as it was. -/
abbrev State.sameBut (s t : State) (p q : PortNo) : Prop :=
  ∀ r : PortNo, r ≠ p → r ≠ q →
    t.entry r = s.entry r ∧ t.sense r = s.sense r ∧ t.power r = s.power r ∧ t.tle r = s.tle r

/-- The engine with a line clear begun for a command or for none (R82). -/
abbrev Tle.clearing (t : Tle) (order : Option Nat) : Tle :=
  { t with
    line := some (.clear order 2000)
    counters :=
      { t.counters with clearsSent := if t.counters.clearsSent < 65535 then t.counters.clearsSent + 1 else t.counters.clearsSent } }

/-- The completions a teardown of a port requests, in the order the commands were taken (R15 step 6): of a REVOKE with
tier 0 and 0 units, of a RELAY with its byte count, of a PORT_DISABLE with the state it met. -/
def State.boundCompletions (s : State) (p : PortNo) (status : Status) : List Report :=
  (s.qe.slots.filter fun sl => sl.bound = some p).map fun sl =>
    .completion sl.tag sl.code sl.port status
      (match sl.kind with
       | .portDisable taken => [byteOf taken.code]
       | .revoke => [0, 0, 0]
       | .relay count => [count]
       | _ => [])

/-- The slots of commands that are not bound to a port. -/
def State.otherSlots (s : State) (p : PortNo) : List Slot := s.qe.slots.filter fun sl => sl.bound != some p

/-! ### Link events (R66 to R84) -/

/-- A 16-bit counter after one more (R172). -/
abbrev counted (n : Nat) : Nat := if n < 65535 then n + 1 else n

/-- The class and the floor an attach debounce in a band concludes with (R3, R43). -/
def attachClass : Band → Option (PowerClass × Nat)
  | .c1 => some (.one, 4)
  | .c2 => some (.two, 10)
  | .c3 => some (.three, 24)
  | .absent => none
  | .low => none

/-- The bus goes on with the first write of the service list, or is idle; nothing is asked of it (R46). -/
abbrev State.busMovesOn (s t : State) : Prop :=
  t.psi.service = s.psi.service.tail
    ∧ (s.psi.service = [] → t.psi.transfer = none)
    ∧ (∀ q : PortNo, s.psi.service.head? = some q →
        t.psi.transfer = ((s.power q).pendingWrite.map fun w => { port := q, write := w, void := false, left := 32 }))
    ∧ ∀ q : PortNo,
        (t.power q).pendingWrite = if s.psi.service.head? = some q then none else (s.power q).pendingWrite

/-- The engine when a reception has ended in a good frame (R69). -/
abbrev Tle.heard (t : Tle) : Tle :=
  { t with receiving := false, guard := 0, counters := { t.counters with goodFrames := counted t.counters.goodFrames } }

/-- The engine when a new frame of this kind and sequence is delivered to LC, with no ACK waiting before: its ACK
stands in front (R69, R71). -/
abbrev Tle.delivers (t : Tle) (seq : BitVec 4) (kind : FrameKind) : Tle :=
  { t.heard with
    queue := { frame := .ack seq, collisions := 0 } :: t.queue
    lastRx := some (seq, kind) }

/-- The engine with a protocol error counted (R173). -/
abbrev Tle.wronged (t : Tle) : Tle :=
  { t with counters := { t.counters with protocolErrors := counted t.counters.protocolErrors } }

/-- The engine with a frame at the back of its queue (R71). -/
abbrev Tle.queues (t : Tle) (f : TxFrame) : Tle := { t with queue := t.queue ++ [{ frame := f, collisions := 0 }] }

/-- Two frames fall under one bound of the transmit queue: of one kind, or a GRANT and a DENY (R72). -/
def sameBound (f g : TxFrame) : Bool :=
  f.kind = g.kind || ((f.kind = .grant || f.kind = .deny) && (g.kind = .grant || g.kind = .deny))

/-- As many frames wait as the bound of this one's kind allows: two answers, else one (R72). -/
abbrev Tle.boundReached (t : Tle) (f : TxFrame) : Prop :=
  (if f.kind = .grant ∨ f.kind = .deny then 2 else 1) ≤ (t.queue.filter fun x => sameBound f x.frame).length

/-- Frames of a kind that wait (R72). -/
def Tle.waits (t : Tle) (k : FrameKind) : Bool := t.queue.any fun x => decide (x.frame.kind = k)

/-- Room under the answer bound for one GRANT or DENY (R72). -/
abbrev Tle.answerRoom (t : Tle) : Prop :=
  (t.queue.filter fun x => x.frame.kind = .grant || x.frame.kind = .deny).length < 2

/-- A reception ends on a port whose receiver collects, before the ACK window is out. -/
abbrev State.collects (s : State) (p : PortNo) : Prop :=
  s.ready ∧ (s.tle p).receiving = true ∧ (s.tle p).test = none ∧ (s.tle p).window ≠ some 0

/-- The hypotheses of a frame delivered to LC: a reception ends, the frame is no duplicate, no ACK waits. -/
abbrev State.hears (s : State) (p : PortNo) (seq : BitVec 4) (kind : FrameKind) : Prop :=
  s.collects p ∧ (s.tle p).lastRx ≠ some (seq, kind) ∧ (s.tle p).waits .ack = false

/-- The kind codes that no frame has (R64; 11, Tap Frame). -/
def unknownKinds : List Nat := [0x5, 0x6, 0xD, 0xE, 0xF]

/-- The bytes of a frame of a kind code, known or not, with a good CRC (R64). -/
def codedFrame (code seq : BitVec 4) (payload : List Byte) : List Byte :=
  let body := byteOf (16 * code.toNat + seq.toNat) :: byteOf payload.length :: payload
  body ++ le16 (crc16 body).toNat

/-- One port's entry and engine differ, and what QE has been told of it; no Sense Unit, no power, no account. -/
abbrev State.onlyPort (s t : State) (p : PortNo) : Prop :=
  (∀ q : PortNo, q ≠ p → t.entry q = s.entry q ∧ t.tle q = s.tle q)
    ∧ t.senses = s.senses ∧ t.psi = s.psi ∧ t.pool = s.pool

/-- A lowering write of this level has been asked for, on a bus that goes on (R48, R119). -/
abbrev State.lowersTo (s t : State) (p : PortNo) (level : Nat) : Prop :=
  t.writeAsked p { value := level, dir := .lower } ∧ s.busGoesOn t
    ∧ (t.power p).pen = (s.power p).pen ∧ t.applied p = s.applied p ∧ (t.power p).settle = (s.power p).settle
    ∧ (∀ q : PortNo, q ≠ p → t.entry q = s.entry q ∧ t.tle q = s.tle q ∧ t.power q = s.power q)
    ∧ t.senses = s.senses

/-- The link of a port is lost with a frame, from the engine as the loss left it (R81): the RELAY of a NOTE completes
LINK_LOST, a line clear is begun, the port is torn down to CLEARING with notices LINK_LOST and LINE_CLEAR, and the
commands still bound to it complete CLEARED. -/
abbrev State.linkLost (s t : State) (p : PortNo) (tle : Tle) (f : TxFrame) : Prop :=
  let s' : State :=
    match f with
    | .note order _ bytes => s.complete order .linkLost [byteOf bytes.length]
    | _ => s
  s.tornDownAlone t p (s.entry p)
      ({ tle with counters := { tle.counters with linkLosses := counted tle.counters.linkLosses } }.clearing none) .clearing
    ∧ t.sense p = { s.sense p with mode := .attached, detachReported := false }
    ∧ s'.told t false p [.linkLost f.kind, .lineClear .linkLost] (s'.boundCompletions p .cleared) (s'.otherSlots p)

/-- The link test of a port is over, its idle guard goes on, and its command, if it is open, completes with a status and
a result (R176, R177). -/
abbrev State.testOver (s t : State) (p : PortNo) (order : Nat) (status : Status) (result : List Byte) : Prop :=
  s.onlyPort t p ∧ t.entry p = s.entry p
    ∧ t.tle p = { s.tle p with test := none, receiving := false }
    ∧ ((s.qe.slots.all fun sl => sl.order != order) = true → s.quiet t)
    ∧ ∀ sl ∈ s.qe.slots, sl.order = order →
        s.told t false p [] [.completion sl.tag sl.code sl.port status result]
          (s.qe.slots.filter fun x => x.order != order)

/-! ### Victims (R126 to R129, R135 to R137) -/

/-- A port stands before another in victim order: priority number descending, most recent grant first, port number
descending (R128). -/
abbrev State.comesFirst (s : State) (a b : PortNo) : Prop :=
  (s.entry b).policy.priority < (s.entry a).policy.priority
    ∨ (s.entry a).policy.priority = (s.entry b).policy.priority
      ∧ ((match s.grantRecord a, s.grantRecord b with
          | some m, some n => decide (n < m)
          | some _, none => true
          | none, _ => false) = true
        ∨ s.grantRecord a = s.grantRecord b ∧ b < a)

/-- What a list of victims frees: of each its held units less its floor (R128, R136). -/
abbrev State.frees (s : State) (vs : List PortNo) : Int :=
  (vs.map fun p => (((s.entry p).held - (s.entry p).floor : Nat) : Int)).sum

/-- Victims for an amount among the ports that qualify: taken from the first in victim order, each only while the ones
before do not cover the amount, and all of them where they do not cover it (R128). -/
abbrev State.victimsFor (s : State) (amount : Int) (ok : PortNo → Prop) (vs : List PortNo) : Prop :=
  vs.Pairwise s.comesFirst ∧ (∀ p ∈ vs, ok p) ∧ (∀ n : Fin 8, n.val < vs.length → s.frees (vs.take n.val) < amount)
    ∧ ∀ p : PortNo, ok p → p ∉ vs → amount ≤ s.frees vs ∧ ∀ q ∈ vs, s.comesFirst q p

/-- Cuts to tier 0 have been created on these ports, with the policy's cut deadline and no command, and a CUT queued
on each; nothing else differs (R111, R112). -/
abbrev State.cutsAll (s t : State) (vs : List PortNo) (cause : CutCause) : Prop :=
  (∀ p ∈ vs,
      t.entry p =
          { s.entry p with
            state := .cutting
            cut := some
              { target := 0, targetUnits := (s.entry p).floor, deadline := (s.entry p).policy.cutDeadline * 10000
                running := true, cause := cause, cmdTag := none } }
        ∧ t.tle p = (s.tle p).queues (.cut 0 (max 1 ((s.entry p).policy.cutDeadline * 10000 / 10000))))
    ∧ (∀ p : PortNo, p ∉ vs → t.entry p = s.entry p ∧ t.tle p = s.tle p)
    ∧ t.senses = s.senses ∧ t.psi = s.psi ∧ t.pool = s.pool ∧ t.qe = s.qe ∧ s.sameRest t

/-- No claim waits for budget without a wait limit: a pass denies nobody (R36). -/
abbrev State.nobodyImpatient (s : State) : Prop :=
  ∀ p : PortNo, ((s.entry p).claim.any fun c => c.phase = .awaitBudget && c.timer.isNone) = false

/-! ### Host commands (R141, R145, R148) -/

/-- Tag, code and port byte of a host command whose port field is examined (R145). -/
def portField : Instr → Option (Word16 × Byte × Byte)
  | .configPort tag port _ => some (tag, 0x01, port)
  | .portEnable tag port => some (tag, 0x02, port)
  | .portDisable tag port => some (tag, 0x03, port)
  | .decide tag port _ _ _ => some (tag, 0x05, port)
  | .revoke tag port _ _ => some (tag, 0x06, port)
  | .lineClear tag port => some (tag, 0x07, port)
  | .relay tag port _ _ => some (tag, 0x08, port)
  | .queryPort tag port _ => some (tag, 0x09, port)
  | .queryLink tag port _ => some (tag, 0x0B, port)
  | .linkTest tag port _ _ _ => some (tag, 0x0C, port)
  | _ => none

/-- The code of a host command (08, The Command Set). -/
def hostCode : Instr → Option Byte
  | .setBudget _ _ _ => some 0x04
  | .queryPool _ => some 0x0A
  | .sync _ => some 0x0D
  | .abort _ _ => some 0x0E
  | c => (portField c).map fun x => x.2.1

/-- Every field of a CONFIG_PORT in its range (R148). -/
abbrev fieldsInRange (f : PolicyFields) : Prop :=
  f.priority.toNat ≤ 3 ∧ f.ceiling.toNat ≤ 400 ∧ f.autoGrant.toNat ≤ 1 ∧ 1 ≤ f.leaseLength.toNat
    ∧ 1 ≤ f.cutDeadline.toNat ∧ 1 ≤ f.decisionWindow.toNat ∧ f.preemptible.toNat ≤ 1 ∧ f.retryLimit.toNat ≤ 3
    ∧ 1 ≤ f.faultCooldown.toNat

/-- The policy that fields in range write. -/
abbrev fieldsPolicy (f : PolicyFields) : Policy where
  priority := f.priority.toNat
  ceiling := f.ceiling.toNat
  autoGrant := decide (f.autoGrant = 1)
  leaseLength := f.leaseLength.toNat
  cutDeadline := f.cutDeadline.toNat
  decisionWindow := f.decisionWindow.toNat
  waitLimit := f.waitLimit.toNat
  preemptible := decide (f.preemptible = 1)
  retryLimit := f.retryLimit.toNat
  faultCooldown := f.faultCooldown.toNat

/-! ### Power is backed by budget (R4, R5, R14) -/

/-- The tier LC is lowering a port to (R119). -/
def Entry.loweringTier (e : Entry) : Nat :=
  match e.lowering with
  | some (.conclude t _) => t
  | _ => e.tier

/-- A limit write not yet made asks for no more than the port holds: a raising one for more than 0 on a port that
holds units (R47), a lowering one for the units of the tier LC is lowering to (R48). -/
def Entry.backs (e : Entry) (w : LimitWrite) : Bool :=
  decide (w.value ≤ e.held)
    && (match w.dir with
        | .lower => e.lowering.isSome && decide (w.value = e.unitsOf e.loweringTier)
        | .raise => e.state.supplied && decide (0 < w.value)
        | .teardown => true)

/-- The held units R14 gives a port's state: the floor in POWERING, the granted tier's units in GRANTING, else the
units of the tier in force where LC is not lowering the port. -/
def Entry.heldFits (e : Entry) : Bool :=
  match e.state with
  | .powering => decide (e.held = e.floor ∧ e.tier = 0)
  | .claiming =>
    e.claim.all fun c => decide (e.held = e.unitsOf (if c.phase = .granting then c.standsOn else e.tier))
  | .powered => e.lowering.isSome || decide (e.held = e.unitsOf e.tier)
  | .cutting => e.lowering.isSome || decide (e.held = e.unitsOf e.tier)
  | .off => true
  | .vacant => true
  | .sensing => true
  | .starved => true
  | .clearing => true
  | .faulted => true

/-- A wait-list entry asks for what its port would then hold more than now (R24). -/
def State.needFits (s : State) (w : WaitEntry) : Bool :=
  match w.kind with
  | .floor => decide (w.need = (s.entry w.port).floor)
  | .tier =>
    decide ((s.entry w.port).held + w.need
      = (s.entry w.port).unitsOf (((s.entry w.port).claim.map ClaimRec.standsOn).getD 0))

/-- While LC lowers a port the port's pending write is the lowering one, and behind a lowering write in transfer there
is none (R46, R119). -/
abbrev State.lowersAlone (s : State) (p : PortNo) : Prop :=
  ((s.entry p).lowering.isSome = true → ((s.power p).pendingWrite.all fun w => w.dir = .lower) = true)
    ∧ ((s.psi.transferOf p).all fun t =>
        t.void || t.write.dir != .lower || (s.power p).pendingWrite.isNone) = true

/-- Applied level within held units (R5), with what that rests on: every write not yet made is backed, PEN is on in
the states that need it (R14), without it the applied level is 0 and no settle runs, the held units are those of the
state, the module's tiers ascend above the floor (R10), and no tier named on the port is beyond them. -/
abbrev State.portBacked (s : State) (p : PortNo) : Prop :=
  s.applied p ≤ (s.entry p).held
    ∧ ((s.power p).pendingWrite.all fun w => (s.entry p).backs w) = true
    ∧ ((s.psi.transferOf p).all fun t => t.void || (s.entry p).backs t.write) = true
    ∧ s.lowersAlone p
    ∧ ((s.entry p).state.linked = true → (s.power p).pen = true)
    ∧ s.offWithoutPen p
    ∧ (((s.entry p).state.supplied = true ∨ (s.entry p).state = .starved) → 0 < (s.entry p).floor)
    ∧ (s.entry p).heldFits = true
    ∧ ((s.entry p).module.all fun m => (s.entry p).state.linked && ascendingFrom (s.entry p).floor m.tiers) = true
    ∧ (s.entry p).tier ≤ (s.entry p).tierCount
    ∧ ((s.entry p).claim.all fun c =>
        decide ((s.entry p).tier < c.standsOn ∧ c.tierClaimed ≤ (s.entry p).tierCount
          ∧ c.standsOn ≤ c.tierClaimed)) = true

/-- Every port's power is backed by the units it holds. -/
abbrev State.supplyBacked (s : State) : Prop :=
  (∀ p : PortNo, s.portBacked p) ∧ (s.pool.waitList.all s.needFits) = true

end Sys2Proof.Machine
end

