-- ==== Sys2Proof/Certificates/Slice0/Obligations.lean ====
section
/-! DEFINITION. The statements for the provers. "The part" is a state of the model between two commands: `ready` says
that RESET# is high and that nothing is half done in QE and BP, `takes` and `takesLong` that the admission test of
R164 passes. -/

open Sys2Proof Sys2Proof.Machine

/-! ### The queue of commands and the Timebase -/

/-- One step takes the command at the front of the queue and is that command's effect on the state with the rest. -/
def Obligations.StepRunsFrontCommand : Prop :=
  ∀ (c : Instr) (rest : List Instr) (s : State),
    step { s with pending := c :: rest } = exec c { s with pending := rest }

/-- Every step answers a next state. A command's effect leaves the queue of commands alone. The model's choice (entry
2): with no command waiting, a step is nothing while RESET# is low, else it puts the first command that is due into the
queue (their order is entry 3), else a microsecond passes. A microsecond lowers every running timer by 1, which stands at
0, and changes nothing else; a sent test frame's echo time rises, and the idle guard counts to 200 while the line is high
and idle (R73), and stands still while a frame is sent or received (entry 22). A row is due exactly when its timer stands
at 0, a held entry passes its test, an engine may begin, an engine finds its line low while it compares it (R76, the moment
by entry 44), or the frame of an INTERNAL link test has been sent: its reception, with the bytes of that frame, is then due
(the model's choice, entry 27). -/
def Obligations.EveryStepAnswers : Prop :=
  (∀ (c : Instr) (s : State), ∃ t, exec c s = .next t ∧ t.pending = s.pending)
    ∧ ∀ s : State, s.pending = [] →
      (s.resetLow = true → step s = .next s)
        ∧ (∀ (c : Instr) (rest : List Instr), s.resetLow = false → s.due = c :: rest →
            step s = .next { s with pending := [c] })
        ∧ (s.resetLow = false → s.due = [] → step s = .next s.tick)
        ∧ (s.resetLow = false → s.due = [] → ∃ t, step s = .next t
            ∧ t.pool = s.pool ∧ t.qe = s.qe ∧ s.sameRest t ∧ t.psi.service = s.psi.service
            ∧ t.psi.transfer = (s.psi.transfer.map fun x => { x with left := x.left - 1 })
            ∧ ∀ p : PortNo,
              let idle := (s.tle p).tapLow = false ∧ (s.tle p).line = none ∧ (s.tle p).receiving = false
                ∧ ((s.tle p).test.all fun x => match x.mode, x.phase with
                    | .external, .sending _ => false
                    | _, _ => true) = true
              let guard := if idle then min 200 ((s.tle p).guard + 1) else (s.tle p).guard
              t.entry p =
                  { s.entry p with
                    lease := (s.entry p).lease.map fun l => if l.running then { l with remaining := l.remaining - 1 } else l
                    claim := (s.entry p).claim.map fun c => { c with timer := c.timer.map fun n => n - 1 }
                    cut := (s.entry p).cut.map fun c => if c.running then { c with deadline := c.deadline - 1 } else c
                    clearRest := (s.entry p).clearRest.map fun n => n - 1
                    cooldown := (s.entry p).cooldown.map fun n => n - 1 }
                ∧ t.sense p =
                  { s.sense p with
                    attachTimer := (s.sense p).attachTimer.map fun n => n - 1
                    detachTimer := (s.sense p).detachTimer.map fun n => n - 1
                    filter := (s.sense p).filter.map fun n => n - 1 }
                ∧ t.power p = { s.power p with settle := (s.power p).settle.map fun n => n - 1 }
                ∧ t.tle p =
                  { s.tle p with
                    line := (s.tle p).line.map fun u => match u with
                      | .frame x seq again left => .frame x seq again (left - 1)
                      | .clear order left => .clear order (left - 1)
                    window := (s.tle p).window.map fun n => n - 1
                    lowLeft := (s.tle p).lowLeft.map fun n => n - 1
                    guard := guard, ignoring := (s.tle p).ignoring && decide (guard ≠ 200)
                    test := (s.tle p).test.map fun x =>
                      { x with
                        timer := x.timer - 1
                        phase := match x.phase with
                          | .waiting => .waiting
                          | .sending left => .sending (left - 1)
                          | .sent us => .sent (us + 1) } })
    ∧ ∀ (s : State) (p : PortNo) (bytes : List Byte),
      (.limitWriteMade ∈ s.due ↔ (s.psi.transfer.any fun x => x.left = 0) = true)
        ∧ (.heldEntryTake ∈ s.due ↔ s.qe.engine = .running ∧ (s.qe.held.any fun e =>
            decide (s.qe.backlog.length + s.qe.slots.length < 24 ∧ (entryCode e ∈ longCodes → s.qe.slots.length < 8))) = true)
        ∧ (.settled p ∈ s.due ↔ (s.power p).settle = some 0)
        ∧ (.attach p ∈ s.due ↔ (s.entry p).state = .sensing ∧ (s.sense p).mode = .debounce
            ∧ (s.sense p).band.present = true ∧ (s.sense p).attachTimer = some 0)
        ∧ (.detach p ∈ s.due ↔ (s.sense p).detachTimer = some 0)
        ∧ (.faultInputFiltered p ∈ s.due ↔ (s.sense p).filter = some 0)
        ∧ (.leaseExpiry p ∈ s.due ↔ ((s.entry p).lease.any fun l => l.running && l.remaining = 0) = true)
        ∧ (.decisionWindowExpiry p ∈ s.due ↔
            ((s.entry p).claim.any fun c => decide (c.phase = .awaitHost ∧ c.timer = some 0)) = true)
        ∧ (.waitLimitExpiry p ∈ s.due ↔
            ((s.entry p).claim.any fun c => decide (c.phase = .awaitBudget ∧ c.timer = some 0)) = true)
        ∧ (.cutDeadline p ∈ s.due ↔ ((s.entry p).cut.any fun c => c.running && c.deadline = 0) = true)
        ∧ (.clearRestEnd p ∈ s.due ↔ (s.entry p).state = .clearing ∧ (s.entry p).clearRest = some 0)
        ∧ (.faultCooldownEnd p ∈ s.due ↔ (s.entry p).state = .faulted ∧ (s.entry p).cooldown = some 0)
        ∧ (.frameSent p ∈ s.due ↔ ((s.tle p).line.any fun u => match u with
            | .frame _ _ _ left => decide (left = 0)
            | .clear _ _ => false) = true ∨ (s.tle p).line = none ∧ ((s.tle p).test.any fun x => x.phase = .sending 0) = true)
        ∧ (.clearSent p ∈ s.due ↔ ((s.tle p).line.any fun u => match u with
            | .frame _ _ _ _ => false
            | .clear _ left => decide (left = 0)) = true)
        ∧ (.collision p ∈ s.due ↔ (s.tle p).tapLow = true ∧ (s.tle p).compares = true)
        ∧ (.ackWindowExpiry p ∈ s.due ↔ (s.tle p).window = some 0 ∧ (s.tle p).receiving = false)
        ∧ (.lineClearReceived p ∈ s.due ↔ (s.tle p).detector = true ∧ (s.tle p).lowLeft = some 0)
        ∧ (.transmitBegin p ∈ s.due ↔
            (s.tle p).guard = 200 ∧ (s.tle p).lineFree = true ∧ (s.tle p).canSend = true)
        ∧ (.linkTestTimeout p ∈ s.due ↔ ((s.tle p).test.any fun x => x.timer = 0) = true)
        ∧ (.linkTestReception p bytes ∈ s.due ↔ ((s.tle p).test.any fun x => match x.mode, x.phase with
            | .internal, .sent _ => decide (bytes = frameBytes .note 0 x.pattern)
            | _, _ => false) = true)

/-! ### Resets -/

/-- RESET# low and a soft reset return every lease table entry and PSI to the values of R1, R7 and R45, whatever state
a port was in, with no report. -/
def Obligations.ResetReturnsEveryEntryAndPsi : Prop :=
  ∀ (s : State) (c : Instr), (c = .powerOnReset ∨ c = .softReset ∧ s.resetLow = false) →
    ∃ t, exec c s = .next t ∧ t.pending = s.pending ∧ t.resetLow = decide (c = .powerOnReset) ∧ t.qe.backlog = []
      ∧ t.qe.summaries = Vector.replicate 8 { kinds := 0, notesDropped := 0 }
      ∧ (∀ p : PortNo, t.entry p =
          { state := .off, cls := .none, floor := 0, held := 0, tier := 0
            policy :=
              { priority := 3, ceiling := 0, autoGrant := false, leaseLength := 30, cutDeadline := 20, decisionWindow := 25
                waitLimit := 20, preemptible := true, retryLimit := 2, faultCooldown := 10 }
            faults := 0, strikes := 0, lastDraw := none, module := none, lease := none, claim := none, cut := none
            clearRest := none, cooldown := none, lowering := none, waiting := [], deferredAnnounce := none
            deferredCeiling := false })
      ∧ (∀ p : PortNo, t.power p = { pen := false, applied := 0, pendingWrite := none, settle := none })
      ∧ t.psi.service = [] ∧ t.psi.transfer = none

/-- The same two resets return the Sense Units, the Tap Link Engines, the pool and QE to their values; a soft reset
keeps the four base and size registers (R162); the released part then holds exactly these values. The input pins keep
their levels and the sampled fault input takes the pin's: the model's choice (entries 8 and 9). The order number starts
at 0 (entry 16), and the model's own fields stand as it chooses: no last read or write (entry 24), no room reserved and
no order of BP untaken (entry 26). -/
def Obligations.ResetReturnsTheOtherBlocks : Prop :=
  ∀ (s : State) (c : Instr), (c = .powerOnReset ∨ c = .softReset ∧ s.resetLow = false) →
    ∃ t, exec c s = .next t ∧ exec .resetRelease t = .next { t with resetLow := false }
      ∧ (∀ p : PortNo, t.sense p =
          { mode := .disabled, band := (s.sense p).band, attachTimer := none, detachTimer := none, detachReported := false
            fault := (s.sense p).fault, sampled := (s.sense p).fault, filter := none })
      ∧ (∀ p : PortNo, t.tle p =
          { queue := [], line := none, awaiting := none, retransmit := false, window := none, retries := 0, txSeq := 0
            lastRx := none, guard := 0, receiver := false, detector := false, receiving := false, ignoring := false
            tapLow := (s.tle p).tapLow, lowLeft := none, counters := ⟨0, 0, 0, 0, 0, 0, 0, 0, 0, 0, 0, 0, 0⟩, test := none })
      ∧ t.pool =
          { target := 0, committed := 0, effective := 0, preemption := false, claimTag := 1, arrival := 0, waitList := []
            grantOrder := Vector.replicate 8 none, orders := [] }
      ∧ t.qe =
          { engine := .stopped, enable := false, reportIe := false, errorIe := false, cause := .none, intReport := false
            intError := false
            cmdBase := if c = .softReset then s.qe.cmdBase else 0
            cmdSize := if c = .softReset then s.qe.cmdSize else 0
            cmdHead := 0, cmdTail := 0
            rptBase := if c = .softReset then s.qe.rptBase else 0
            rptSize := if c = .softReset then s.qe.rptSize else 0
            rptHead := 0, rptTail := 0, sequence := 0, backlog := [], slots := [], nextOrder := 0
            summaries := Vector.replicate 8 { kinds := 0, notesDropped := 0 }
            held := none, fetching := false, writing := false, reserved := false, lastRead := none, lastWrite := none }

/-- While RESET# is low every block holds its state: no command but the release changes anything, beside what follows
an input pin (entry 7). -/
def Obligations.ResetHoldsEveryBlock : Prop :=
  ∀ (c : Instr) (s : State), s.resetLow = true → c ≠ .powerOnReset → c ≠ .resetRelease →
    ∃ t, exec c s = .next t ∧ t.resetLow = true ∧ t.pending = s.pending
      ∧ t.entries = s.entries ∧ t.psi = s.psi ∧ t.pool = s.pool ∧ t.qe = s.qe
      ∧ (∀ p : PortNo, t.tle p = { s.tle p with tapLow := (t.tle p).tapLow })
      ∧ (∀ p : PortNo, { t.sense p with filter := none } =
          { s.sense p with
            band := (t.sense p).band, fault := (t.sense p).fault, sampled := (t.sense p).sampled, filter := none })

/-! ### The register window -/

/-- ENABLE (R160): with ENABLE 1 nothing but the interrupt enables is written; a setup that fails the check leaves
ENABLE 0, the engine STOPPED with cause CONFIG, and sets INT.ERROR; a setup that passes sets the four indices and the
sequence to 0 and enters RUNNING with the backlog kept and the reports written from position 0. The model's choices: a
ring access of an earlier run is given up at a passing enable (entry 13), and the summaries are drained in the enable
itself as long as there is room (entry 35). -/
def Obligations.EnableChecksTheRingSetup : Prop :=
  ∀ (reportIe errorIe : Bool) (s : State), s.ready →
    ∃ t, exec (.enable reportIe errorIe) s = .next t ∧ s.samePorts t ∧ s.sameRest t ∧ t.qe.slots = s.qe.slots
      ∧ t.qe.nextOrder = s.qe.nextOrder ∧ t.qe.held = s.qe.held ∧ t.qe.lastWrite = s.qe.lastWrite
      ∧ t.qe.reportIe = reportIe ∧ t.qe.errorIe = errorIe ∧ t.qe.intReport = s.qe.intReport
      ∧ t.qe.cmdBase = s.qe.cmdBase ∧ t.qe.cmdSize = s.qe.cmdSize
      ∧ t.qe.rptBase = s.qe.rptBase ∧ t.qe.rptSize = s.qe.rptSize
      ∧ (s.qe.enable = true ∨ ¬ s.qe.ringSetup →
          s.sameReports t ∧ t.qe.cmdHead = s.qe.cmdHead ∧ t.qe.cmdTail = s.qe.cmdTail ∧ t.qe.rptHead = s.qe.rptHead
            ∧ t.qe.rptTail = s.qe.rptTail ∧ t.qe.sequence = s.qe.sequence ∧ t.qe.enable = s.qe.enable)
      ∧ (s.qe.enable = false → t.qe.lastRead = s.qe.lastRead)
      ∧ (s.qe.enable = true → t.qe.engine = s.qe.engine ∧ t.qe.cause = s.qe.cause ∧ t.qe.intError = s.qe.intError)
      ∧ (s.qe.enable = false → ¬ s.qe.ringSetup →
          t.qe.engine = .stopped ∧ t.qe.cause = .config ∧ t.qe.intError = true)
      ∧ (s.qe.enable = false → s.qe.ringSetup →
          t.qe.enable = true ∧ t.qe.engine = .running ∧ t.qe.cause = .none ∧ t.qe.intError = s.qe.intError
            ∧ t.qe.cmdHead = 0 ∧ t.qe.cmdTail = 0 ∧ t.qe.rptHead = 0 ∧ t.qe.rptTail = 0 ∧ t.qe.sequence = 0
            ∧ t.qe.fetching = false ∧ t.qe.writing = !t.qe.backlog.isEmpty
            ∧ s.qe.backlog <+: t.qe.backlog
            ∧ ((∀ p : PortNo, (t.summary p).kinds = 0) ∨ t.qe.backlog.length + t.qe.slots.length = 24))

/-- DISABLE (R161): QE enters STOPPED with its cause, indices, sequence, backlog and open commands kept and a held
entry discarded; a ring access in progress is still to be finished by its own row; where ENABLE reads 0 outside HALTED
only the interrupt enables are written. HALTED with ENABLE reading 0, which a bus error after a disable brings, also
goes to STOPPED: the model's choice between two sentences of R161 (entry 15). -/
def Obligations.DisableStopsQe : Prop :=
  ∀ (reportIe errorIe : Bool) (s : State), s.ready →
    ∃ t, exec (.disable reportIe errorIe) s = .next t ∧ s.samePorts t ∧ s.sameRest t
      ∧ (s.qe.enable = true ∨ s.qe.engine = .halted →
          t.qe =
            { s.qe with
              enable := false, engine := .stopped, held := none, reportIe := reportIe, errorIe := errorIe })
      ∧ (s.qe.enable = false → s.qe.engine = .stopped →
          t.qe = { s.qe with reportIe := reportIe, errorIe := errorIe })

/-- INT_CLEAR, CMD_TAIL_WRITE and RPT_HEAD_WRITE (R159, R169, R171): a 1 clears its INT bit, a 0 leaves it, HALTED is
not left, and the INT output follows. In RUNNING an index below the ring's size is stored, and a CMD_TAIL that leaves
the command ring not empty begins a read of the entry at CMD_BASE + 32 × CMD_HEAD where none is held and none in
progress (R163; the address is shown in qe.lastRead, the model's, entry 24). An index at or above the size is not
stored, QE enters HALTED with the cause of its index and INT.ERROR, a held entry is discarded (R163) and an access in
progress is left to be finished; in STOPPED and HALTED an index write is ignored. -/
def Obligations.InterruptAndIndexWrites : Prop :=
  ∀ (v : Word32) (s : State), s.ready →
    (∃ t, exec (.intClear v) s = .next t ∧ s.samePorts t ∧ s.sameReports t ∧ s.sameRest t
      ∧ t.qe.intReport = (s.qe.intReport && !v.getLsbD 0) ∧ t.qe.intError = (s.qe.intError && !v.getLsbD 1)
      ∧ s.sameWindow { t with qe := { t.qe with intReport := s.qe.intReport, intError := s.qe.intError } }
      ∧ t.intPin =
          ((s.qe.intReport && !v.getLsbD 0 && s.qe.reportIe) || (s.qe.intError && !v.getLsbD 1 && s.qe.errorIe)))
      ∧ ∃ t u, exec (.cmdTailWrite v) s = .next t ∧ exec (.rptHeadWrite v) s = .next u
          ∧ s.samePorts t ∧ s.sameReports t ∧ s.sameRest t ∧ s.samePorts u ∧ s.sameReports u ∧ s.sameRest u
          ∧ (s.qe.engine = .running → v.toNat < s.qe.cmdSize.toNat →
              { t.qe with fetching := s.qe.fetching, writing := s.qe.writing, lastRead := s.qe.lastRead } =
                  { s.qe with cmdTail := v }
                ∧ (s.qe.fetching = true → t.qe.fetching = true ∧ t.qe.lastRead = s.qe.lastRead)
                ∧ (s.qe.fetching = false → (s.qe.cmdHead = v ∨ s.qe.held.isSome = true) →
                    t.qe.fetching = false ∧ t.qe.lastRead = s.qe.lastRead)
                ∧ (s.qe.fetching = false → s.qe.cmdHead ≠ v → s.qe.held = none →
                    t.qe.fetching = true ∧ t.qe.lastRead = some (s.qe.cmdBase + 32 * s.qe.cmdHead)))
          ∧ (s.qe.engine = .running → s.qe.cmdSize.toNat ≤ v.toNat →
              t.qe = { s.qe with engine := .halted, cause := .cmdIndex, intError := true, held := none })
          ∧ (s.qe.engine = .running → v.toNat < s.qe.rptSize.toNat →
              { u.qe with fetching := s.qe.fetching, writing := s.qe.writing, lastRead := s.qe.lastRead } =
                  { s.qe with rptHead := v })
          ∧ (s.qe.engine = .running → s.qe.rptSize.toNat ≤ v.toNat →
              u.qe = { s.qe with engine := .halted, cause := .rptIndex, intError := true, held := none })
          ∧ (s.qe.engine ≠ .running → t.qe = s.qe ∧ u.qe = s.qe)

/-- REGISTER_WRITE: a word at the offset of CTRL, INT, CMD_TAIL or RPT_HEAD is the named write, SOFT_RESET before the
other bits of CTRL (R159); a write narrower than a word is ignored (R178). A word at a base or size register is stored
and read back while ENABLE reads 0, and every other register reads as before; while it reads 1, and at a read-only
register or a gap of the window, the write is ignored (R159, R178). -/
def Obligations.RegisterWritesByOffset : Prop :=
  ∀ (v : Word32) (s : State),
    (exec (.registerWrite 0x04 .word v) s =
        (if v.getLsbD 1 then exec .softReset s
         else if v.getLsbD 0 then exec (.enable (v.getLsbD 2) (v.getLsbD 3)) s
         else exec (.disable (v.getLsbD 2) (v.getLsbD 3)) s)
      ∧ exec (.registerWrite 0x0C .word v) s = exec (.intClear v) s
      ∧ exec (.registerWrite 0x18 .word v) s = exec (.cmdTailWrite v) s
      ∧ exec (.registerWrite 0x28 .word v) s = exec (.rptHeadWrite v) s
      ∧ ∀ (offset : BitVec 6) (width : AccessWidth), width ≠ .word → exec (.registerWrite offset width v) s = .next s)
      ∧ ∀ offset : BitVec 6, s.ready →
        (offset.toNat ∉ [0x04, 0x0C, 0x18, 0x28]) →
        ∃ t, exec (.registerWrite offset .word v) s = .next t ∧ s.samePorts t ∧ s.sameReports t ∧ s.sameRest t
          ∧ t.qe.held = s.qe.held ∧ t.qe.lastWrite = s.qe.lastWrite ∧ t.qe.sequence = s.qe.sequence
          ∧ (s.qe.enable = false → offset.toNat ∈ [0x10, 0x14, 0x20, 0x24] → t.readReg offset.toNat = v)
          ∧ (∀ o : BitVec 6, o ≠ offset ∨ s.qe.enable = true ∨ offset.toNat ∉ [0x10, 0x14, 0x20, 0x24] →
              t.readReg o.toNat = s.readReg o.toNat)

/-! ### The rings -/

/-- COMMAND_FETCH and HELD_ENTRY_TAKE (R141, R163, R164): where the admission test passes for its code, CMD_HEAD
advances by 1, from size − 1 to 0, and in the same event the entry's command has its own effect. The model's choice
(entry 41): where the size was rewritten after a disable while the read was in progress, the wrap is at the new size. -/
def Obligations.TakenEntryIsItsCommand : Prop :=
  ∀ (e : List Byte) (s : State), s.ready → s.qe.backlog.length + s.qe.slots.length + 1 ≤ 24 →
    (entryCode e ∈ longCodes → s.qe.slots.length < 8) → ∀ c : Instr, decodeEntry e = some c →
    (s.qe.fetching = true →
      ∃ t, exec (.commandFetch e) s = .next t
        ∧ exec c
            { s with
              qe :=
                { s.qe with
                  fetching := false, held := none
                  cmdHead := if s.qe.cmdHead + 1 = s.qe.cmdSize then 0 else s.qe.cmdHead + 1 } } = .next t)
      ∧ (s.qe.held = some e → s.qe.engine = .running →
          ∃ t, exec .heldEntryTake s = .next t
            ∧ exec c
                { s with
                  qe :=
                    { s.qe with
                      held := none
                      cmdHead := if s.qe.cmdHead + 1 = s.qe.cmdSize then 0 else s.qe.cmdHead + 1 } } = .next t)

/-- COMMAND_FETCH of an entry that is not handed to an owner: an unknown code completes BAD_COMMAND with tag, code and
port as read (R141); an entry for which the admission test fails is held in RUNNING (R163) and discarded elsewhere
(R161), with CMD_HEAD not advanced. After a taken entry the next is read where the ring is still not empty: in RUNNING,
at CMD_BASE + 32 × the new CMD_HEAD (R163; qe.lastRead is the model's, entry 24). The model's choice (entry 41): where
the size was rewritten after a disable while the read was in progress, CMD_HEAD wraps at the new size. -/
def Obligations.FetchedEntryWithoutAnOwner : Prop :=
  ∀ (e : List Byte) (s : State), s.ready → s.qe.fetching = true →
    ((entryCode e).toNat = 0 ∨ 0x0F ≤ (entryCode e).toNat → s.qe.backlog.length + s.qe.slots.length < 24 →
        ∃ t, exec (.commandFetch e) s = .next t ∧ s.samePorts t ∧ s.sameRest t
          ∧ t.qe.backlog = s.qe.backlog ++ [.completion (entryTag e) (entryCode e) (entryPort e) .badCommand []]
          ∧ t.qe.slots = s.qe.slots ∧ t.qe.summaries = s.qe.summaries
          ∧ (let head := if s.qe.cmdHead + 1 = s.qe.cmdSize then 0 else s.qe.cmdHead + 1
             { t.qe with
               fetching := true, writing := s.qe.writing, backlog := s.qe.backlog, lastRead := s.qe.lastRead } =
                 { s.qe with held := none, cmdHead := head }
               ∧ t.qe.fetching = decide (s.qe.engine = .running ∧ head ≠ s.qe.cmdTail)
               ∧ t.qe.lastRead =
                   if s.qe.engine = .running ∧ head ≠ s.qe.cmdTail then some (s.qe.cmdBase + 32 * head)
                   else s.qe.lastRead))
      ∧ (s.qe.backlog.length + s.qe.slots.length = 24 ∨ entryCode e ∈ longCodes ∧ s.qe.slots.length = 8 →
        ∃ t, exec (.commandFetch e) s = .next t ∧ s.samePorts t ∧ s.sameRest t
          ∧ (s.qe.engine = .running →
              { t.qe with writing := s.qe.writing } = { s.qe with fetching := false, held := some e })
          ∧ (s.qe.engine ≠ .running → t.qe = { s.qe with fetching := false }))

/-- REPORT_WRITE, COMMAND_FETCH_BUS_ERROR and REPORT_WRITE_BUS_ERROR (R165, R168, R170, R171): a bus error enters
HALTED with the access's cause and INT.ERROR; the entry is not taken, the report stays at the head of the backlog, and
no index, sequence, INT.REPORT or summary changes. At a write made the report at the head leaves the backlog, RPT_TAIL
advances by 1 from size − 1 to 0, the sequence by 1 from 65535 to 0, INT.REPORT is set, and the waiting summary of the
lowest port, if there is one, is drained. The bytes on the bus (qe.lastWrite, the model's, entry 24) are the report's
with the sequence in force, at RPT_BASE + 32 × RPT_TAIL. The model's choices: with base and size rewritten after a
disable while the write was in progress, address and wrap are those of the new registers (entry 41), and a bus error
after an earlier halt overwrites its cause (entry 42). -/
def Obligations.RingAccessesEnd : Prop :=
  ∀ s : State, s.ready →
    (s.qe.fetching = true →
      ∃ t, exec .commandFetchBusError s = .next t ∧ s.samePorts t ∧ s.sameRest t
        ∧ { t.qe with writing := s.qe.writing } =
            { s.qe with engine := .halted, cause := .fetchBus, intError := true, held := none, fetching := false })
      ∧ (s.qe.writing = true →
        ∃ t, exec .reportWriteBusError s = .next t ∧ s.samePorts t ∧ s.sameRest t
          ∧ { t.qe with fetching := s.qe.fetching } =
              { s.qe with engine := .halted, cause := .writeBus, intError := true, held := none, writing := false })
      ∧ (s.qe.writing = true → ∀ (r : Report) (rest : List Report), s.qe.backlog = r :: rest →
        ∃ t, exec .reportWrite s = .next t ∧ s.samePorts t ∧ s.sameRest t
          ∧ { t.qe with
              fetching := s.qe.fetching, writing := s.qe.writing, backlog := s.qe.backlog, summaries := s.qe.summaries
              lastRead := s.qe.lastRead } =
              { s.qe with
                rptTail := if s.qe.rptTail + 1 = s.qe.rptSize then 0 else s.qe.rptTail + 1
                sequence := s.qe.sequence + 1, intReport := true
                lastWrite := some (s.qe.rptBase + 32 * s.qe.rptTail, r.encode s.qe.sequence) }
          ∧ (∀ p : PortNo, (s.summary p).kinds ≠ 0 → (∀ q : PortNo, q < p → (s.summary q).kinds = 0) →
              t.qe.backlog = rest ++ [.summary p (s.summary p).kinds (s.summary p).notesDropped (s.entry p).state]
                ∧ t.summary p = { kinds := 0, notesDropped := 0 }
                ∧ ∀ q : PortNo, q ≠ p → t.summary q = s.summary q)
          ∧ ((∀ p : PortNo, (s.summary p).kinds = 0) → t.qe.backlog = rest ∧ t.qe.summaries = s.qe.summaries))

/-- A report as written has 32 bytes: its type in bits 1:0 of byte 0, the sequence in bytes 2 and 3, bit 7 of byte 0
for the link snapshot alone, a completion's status code in bits 6:2 and its tag in bytes 4 and 5 (R179). A completion's
result, a notice's payload, by its kind, and a summary's contents stand in their places, with 0 in every byte behind. -/
def Obligations.ReportsHaveTheirLayout : Prop :=
  ∀ seq : Word16,
    (∀ (tag : Word16) (code port : Byte) (status : Status) (result : List Byte),
        let b := (Report.completion tag code port status result).encode seq
        b.length = 32 ∧ (byteAt b 0).toNat = 1 + 4 * status.code ∧ byteAt b 1 = port ∧ word16At b 2 = seq
          ∧ word16At b 4 = tag ∧ byteAt b 6 = code ∧ byteAt b 7 = 0
          ∧ ∀ i : Fin 24, byteAt b (8 + i.val) = byteAt result i.val)
      ∧ (∀ (tag : Word16) (port : PortNo) (clear : Bool) (c : Counters),
        let b := (Report.linkSnapshot tag port clear c).encode seq
        b.length = 32 ∧ (byteAt b 0).toNat = 1 + 128 ∧ word16At b 2 = seq ∧ word16At b 4 = tag
          ∧ (byteAt b 1).toNat = port.val + 8 * (if clear then 1 else 0) + 16 * 0xB
          ∧ (c.bounded = true →
              (List.range 13).map (fun i => (word16At b (6 + 2 * i)).toNat) =
                [c.framesSent, c.goodFrames, c.crcErrors, c.malformed, c.duplicates, c.retries, c.collisions
                , c.linkLosses, c.clearsSent, c.clearsReceived, c.protocolErrors, c.strikesTotal, c.notesDropped]))
      ∧ (∀ (port : PortNo) (n : Notice),
        let b := (Report.notice port n).encode seq
        b.length = 32 ∧ (byteAt b 0).toNat = 2 ∧ (byteAt b 1).toNat = port.val ∧ word16At b 2 = seq
          ∧ (byteAt b 4).toNat = n.kindCode ∧ byteAt b 5 = 0 ∧ byteAt b 6 = 0 ∧ byteAt b 7 = 0
          ∧ ∀ i : Fin 24, byteAt b (8 + i.val) = byteAt (noticeBytes n) i.val)
      ∧ (∀ (port : PortNo) (kinds : BitVec 16) (dropped : Nat) (st : PortState), dropped ≤ 65535 →
        let b := (Report.summary port kinds dropped st).encode seq
        b.length = 32 ∧ (byteAt b 0).toNat = 3 ∧ (byteAt b 1).toNat = port.val ∧ word16At b 2 = seq
          ∧ word16At b 4 = kinds ∧ (word16At b 6).toNat = dropped ∧ (byteAt b 8).toNat = st.code
          ∧ ∀ i : Fin 23, byteAt b (9 + i.val) = 0)

/-- A notice request (R167): merged where the port's summary is open; else appended where occupancy, open commands and
the room reserved leave some; else merged, which opens the summary. A merged NOTE counts in the summary and in the
link counter. -/
def Obligations.NoticeIsAppendedOrMerged : Prop :=
  ∀ (p : PortNo) (n : Notice) (s : State),
    let room := s.qe.backlog.length + s.qe.slots.length + (if s.qe.reserved then 1 else 0) < 24
    let t := s.notice p n
    let dropped : Bool := match n with
      | .note _ => true
      | _ => false
    ((s.summary p).kinds = 0 → room →
        t.qe.backlog = s.qe.backlog ++ [.notice p n] ∧ t.qe.summaries = s.qe.summaries ∧ t.tles = s.tles)
      ∧ ((s.summary p).kinds ≠ 0 ∨ ¬ room →
        t.qe.backlog = s.qe.backlog ∧ (t.summary p).kinds = (s.summary p).kinds ||| (1#16 <<< n.kindCode)
          ∧ (t.summary p).kinds ≠ 0
          ∧ (t.summary p).notesDropped =
              (if dropped ∧ (s.summary p).notesDropped < 65535 then (s.summary p).notesDropped + 1
               else (s.summary p).notesDropped)
          ∧ (t.tle p) =
              { s.tle p with
                counters :=
                  { (s.tle p).counters with
                    notesDropped :=
                      if dropped ∧ (s.tle p).counters.notesDropped < 65535 then (s.tle p).counters.notesDropped + 1
                      else (s.tle p).counters.notesDropped } }
          ∧ ∀ q : PortNo, q ≠ p → t.summary q = s.summary q ∧ t.tle q = s.tle q)
      ∧ t.entries = s.entries ∧ t.senses = s.senses ∧ t.psi = s.psi ∧ t.pool = s.pool ∧ t.qe.slots = s.qe.slots
      ∧ s.sameWindow t ∧ s.sameRest t


/-! ### Host commands: the checks before a command's own rule -/

/-- A port above 7 completes BAD_PORT at once, for each of the ten commands whose port field is examined, with the
port byte as read in the completion, and nothing changes (R145, R179). The model's choice (entry 5): a host-command
row for which the admission test of R164 fails is not taken and nothing changes. -/
def Obligations.RefusedBeforeTheRule : Prop :=
  ∀ (c : Instr) (s : State),
    (s.takes → ∀ (tag : Word16) (code port : Byte), portField c = some (tag, code, port) →
      (code ∈ longCodes → s.qe.slots.length < 8) → 8 ≤ port.toNat →
      ∃ t, exec c s = .next t ∧ s.onlyAnswers t (.completion tag code port .badPort []))
      ∧ ∀ code : Byte, hostCode c = some code →
        (24 ≤ s.qe.backlog.length + s.qe.slots.length ∨ code ∈ longCodes ∧ 8 ≤ s.qe.slots.length) → exec c s = .next s

/-! ### CONFIG_PORT -/

/-- CONFIG_PORT (R148, R149): a field out of range completes BAD_PARAM and nothing is written; else the ten fields are
written together, on no other port, and the command completes OK with the port's state after the consequences; with
ceiling, lease length and priority as they were there is no consequence, so that nothing but the policy changes. A
changed priority alone (R31, R29, R33): the port's wait-list entry takes the new priority and its place among the
others, with its arrival number, and a pass runs: with no entry that fits and no preemption the list alone changes; a
FLOOR entry moved to the head that fits is admitted, its port powered up, before the completion. -/
def Obligations.ConfigPortWritesAllOrNothing : Prop :=
  ∀ (tag : Word16) (p : PortNo) (f : PolicyFields) (s : State), s.takes →
    (¬ fieldsInRange f → ∃ t, exec (.configPort tag (byteOf p.val) f) s = .next t
        ∧ s.onlyAnswers t (.completion tag 0x01 (byteOf p.val) .badParam []))
      ∧ (fieldsInRange f → ∃ t, exec (.configPort tag (byteOf p.val) f) s = .next t
        ∧ (t.entry p).policy = fieldsPolicy f ∧ (∀ q : PortNo, q ≠ p → (t.entry q).policy = (s.entry q).policy)
        ∧ s.qe.backlog <+: t.qe.backlog
        ∧ .completion tag 0x01 (byteOf p.val) .ok [byteOf (t.entry p).state.code] ∈ t.qe.backlog.drop s.qe.backlog.length
        ∧ (f.ceiling.toNat = (s.entry p).policy.ceiling → f.leaseLength.toNat = (s.entry p).policy.leaseLength →
            f.priority.toNat = (s.entry p).policy.priority →
            t.entry p = { s.entry p with policy := fieldsPolicy f }
              ∧ (∀ q : PortNo, q ≠ p → t.entry q = s.entry q)
              ∧ s.onlyAnswers { t with entries := s.entries }
                  (.completion tag 0x01 (byteOf p.val) .ok [byteOf (s.entry p).state.code])))
      ∧ (fieldsInRange f → f.ceiling.toNat = (s.entry p).policy.ceiling →
          f.leaseLength.toNat = (s.entry p).policy.leaseLength → f.priority.toNat ≠ (s.entry p).policy.priority →
          s.pool.effective = s.pool.target → s.pool.committed ≤ s.pool.target → s.pool.preemption = false →
        (s.waitListSorted → (s.pool.waitList.map fun w => w.port).Nodup →
            (s.pool.waitList.all fun w => decide (s.pool.target < s.pool.committed + w.need)
              && (w.kind = .floor || (s.entry w.port).claim.any fun c => c.timer.isSome)) = true →
          ∃ t, exec (.configPort tag (byteOf p.val) f) s = .next t
            ∧ t.entry p = { s.entry p with policy := fieldsPolicy f }
            ∧ (∀ q : PortNo, q ≠ p → t.entry q = s.entry q)
            ∧ t.pool = { s.pool with waitList := t.pool.waitList }
            ∧ t.pool.waitList.Perm
                (s.pool.waitList.map fun w => if w.port = p then { w with priority := f.priority.toNat } else w)
            ∧ (t.pool.waitList.Pairwise fun a b =>
                a.priority < b.priority
                  ∨ a.priority = b.priority
                    ∧ (a.kind = .floor ∧ b.kind = .tier ∨ a.kind = b.kind ∧ a.arrival ≤ b.arrival))
            ∧ s.onlyAnswers { t with entries := s.entries, pool := s.pool }
                (.completion tag 0x01 (byteOf p.val) .ok [byteOf (s.entry p).state.code]))
        ∧ (∀ a b : WaitEntry, s.pool.waitList = [a, b] → a.port ≠ p → b.port = p → a.kind = .floor → b.kind = .floor →
            (s.entry p).state = .starved → s.busConsistent → f.priority.toNat < a.priority →
            s.pool.committed + b.need ≤ s.pool.target → s.pool.target < s.pool.committed + b.need + a.need →
          ∃ t, exec (.configPort tag (byteOf p.val) f) s = .next t
            ∧ { s with entries := s.entries.set p { s.entry p with policy := fieldsPolicy f } }.powersUp t p b.need
            ∧ s.sameOthers t p ∧ s.busGoesOn t
            ∧ t.pool = { s.pool with committed := s.pool.committed + b.need, waitList := [a] }
            ∧ s.told t true p [] [.completion tag 0x01 (byteOf p.val) .ok [3]] s.qe.slots))

/-- CONFIG_PORT that changes the ceiling or the lease length, with the priority as it was. In POWERED below the tier in
force (R122, R93, R111, R112): an OFFER with the new figures and then a CUT are queued, and a cut record with cause
CEILING to the highest tier within the ceiling, or to the floor, is created with the cut deadline just written; units,
applied level, tier and lease stand. In POWERED, CLAIMING or CUTTING without a cut due: the OFFER alone (R93). A claim
that waits for the host above the lowered ceiling (R101): DENY(OVER_OFFER), the OFFER behind it, the port POWERED, and
notice CLAIM_DENIED before the completion, and where the ceiling is below the tier in force too the cut follows; in
AWAIT_BUDGET its entry goes as well. In CUTTING the cut record narrows where its target is above the ceiling, and while
LC lowers the port the cut waits there (R113, R119). In GRANTING (R123): the OFFER, and the ceiling cut is deferred, at
any lowering of the ceiling (the model's reading, entry 21). -/
def Obligations.LoweredCeilingCuts : Prop :=
  ∀ (tag : Word16) (p : PortNo) (f : PolicyFields) (s : State), s.takes → fieldsInRange f →
    f.priority.toNat = (s.entry p).policy.priority →
    ((s.tle p).queue.all fun x => x.frame.kind != .offer && x.frame.kind != .cut) = true →
    let e := s.entry p
    let c := Instr.configPort tag (byteOf p.val) f
    let permitted := e.module.elim 0 fun m => (m.tiers.filter fun u => u ≤ f.ceiling.toNat).length
    let offer := TxFrame.offer permitted f.leaseLength.toNat
    let lowers := f.ceiling.toNat < e.policy.ceiling
    let changes := f.ceiling.toNat ≠ e.policy.ceiling ∨ f.leaseLength.toNat ≠ e.policy.leaseLength
    let granting := (e.claim.any fun x => decide (x.phase = .granting)) = true
    (s.portBacked p → (e.module.all fun m => decide (1 ≤ m.tiers.length ∧ m.tiers.length ≤ 6)) = true →
      e.state = .powered → e.lowering = none → e.tier ≠ 0 → lowers → f.ceiling.toNat < e.unitsOf e.tier →
      ∀ m : ModuleRec, e.module = some m →
      ∃ t, exec c s = .next t
        ∧ s.onlyAnswers { t with entries := s.entries, tles := s.tles } (.completion tag 0x01 (byteOf p.val) .ok [7])
        ∧ (∀ q : PortNo, q ≠ p → t.entry q = s.entry q ∧ t.tle q = s.tle q)
        ∧ ∃ g : Fin 7,
            (g.val = 0 ∨ g.val ≤ m.tiers.length ∧ m.tiers.getD (g.val - 1) 0 ≤ f.ceiling.toNat)
              ∧ (∀ h : Fin 6, g.val ≤ h.val → h.val < m.tiers.length → f.ceiling.toNat < m.tiers.getD h.val 0)
              ∧ t.entry p =
                { e with
                  policy := fieldsPolicy f, state := .cutting
                  cut := some
                    { target := g.val, targetUnits := e.unitsOf g.val, deadline := f.cutDeadline.toNat * 10000
                      running := true, cause := .ceiling, cmdTag := none } }
              ∧ t.tle p =
                { s.tle p with
                  queue := (s.tle p).queue ++
                    [ { frame := .offer g.val f.leaseLength.toNat, collisions := 0 }
                    , { frame := .cut g.val f.cutDeadline.toNat, collisions := 0 } ] })
      ∧ (e.state ∈ [.powered, .claiming, .cutting] → changes → ¬ (lowers ∧ granting) →
          (lowers → (e.claim.all fun x => decide (e.unitsOf (x.granted.getD x.tierClaimed) ≤ f.ceiling.toNat)) = true) →
          (lowers → e.tier = 0 ∨ e.unitsOf e.tier ≤ f.ceiling.toNat) →
        ∃ t, exec c s = .next t
          ∧ s.onlyAnswers { t with entries := s.entries, tles := s.tles }
              (.completion tag 0x01 (byteOf p.val) .ok [byteOf e.state.code])
          ∧ (∀ q : PortNo, q ≠ p → t.entry q = s.entry q ∧ t.tle q = s.tle q)
          ∧ t.entry p = { e with policy := fieldsPolicy f } ∧ t.tle p = (s.tle p).queues offer)
      ∧ (∀ x : ClaimRec, e.state = .claiming → e.claim = some x → x.phase = .awaitHost →
          (s.pool.waitList.all fun w => w.port != p) = true → (s.tle p).answerRoom → lowers →
          f.ceiling.toNat < e.unitsOf (x.granted.getD x.tierClaimed) →
          (e.tier = 0 ∨ e.unitsOf e.tier ≤ f.ceiling.toNat) →
        ∃ t, exec c s = .next t
          ∧ t.entry p = { e with policy := fieldsPolicy f, claim := none, state := .powered }
          ∧ t.tle p = ((s.tle p).queues (.deny x.tierClaimed .overOffer x.moduleClaimId)).queues offer
          ∧ (∀ q : PortNo, q ≠ p → t.entry q = s.entry q ∧ t.tle q = s.tle q)
          ∧ t.senses = s.senses ∧ t.psi = s.psi ∧ t.pool = s.pool
          ∧ s.told t true p [.claimDenied x.tag .overOffer] [.completion tag 0x01 (byteOf p.val) .ok [5]] s.qe.slots)
      ∧ (∀ x : ClaimRec, e.state = .claiming → e.claim = some x → x.phase = .awaitBudget → s.poolQuiet p →
          (s.tle p).answerRoom → lowers → f.ceiling.toNat < e.unitsOf (x.granted.getD x.tierClaimed) →
          (e.tier = 0 ∨ e.unitsOf e.tier ≤ f.ceiling.toNat) →
        ∃ t, exec c s = .next t
          ∧ t.entry p = { e with policy := fieldsPolicy f, claim := none, state := .powered }
          ∧ t.tle p = ((s.tle p).queues (.deny x.tierClaimed .overOffer x.moduleClaimId)).queues offer
          ∧ (∀ q : PortNo, q ≠ p → t.entry q = s.entry q ∧ t.tle q = s.tle q)
          ∧ t.senses = s.senses ∧ t.psi = s.psi ∧ t.pool = { s.pool with waitList := [] }
          ∧ s.told t true p [.claimDenied x.tag .overOffer] [.completion tag 0x01 (byteOf p.val) .ok [5]] s.qe.slots)
      ∧ (∀ x : ClaimRec, e.state = .claiming → e.claim = some x → x.phase ≠ .granting → s.poolQuiet p →
          (s.tle p).answerRoom → lowers → f.ceiling.toNat < e.unitsOf (x.granted.getD x.tierClaimed) →
          e.tier ≠ 0 → f.ceiling.toNat < e.unitsOf e.tier → permitted < e.tier → e.lowering = none →
        ∃ t, exec c s = .next t
          ∧ t.entry p =
            { e with
              policy := fieldsPolicy f, claim := none, state := .cutting
              cut := some
                { target := permitted, targetUnits := e.unitsOf permitted, deadline := f.cutDeadline.toNat * 10000
                  running := true, cause := .ceiling, cmdTag := none } }
          ∧ t.tle p =
            (((s.tle p).queues (.deny x.tierClaimed .overOffer x.moduleClaimId)).queues offer).queues
              (.cut permitted f.cutDeadline.toNat)
          ∧ (∀ q : PortNo, q ≠ p → t.entry q = s.entry q ∧ t.tle q = s.tle q)
          ∧ t.senses = s.senses ∧ t.psi = s.psi ∧ t.pool = { s.pool with waitList := [] }
          ∧ s.told t true p [.claimDenied x.tag .overOffer] [.completion tag 0x01 (byteOf p.val) .ok [7]] s.qe.slots)
      ∧ (∀ r : CutRec, e.state = .cutting → e.cut = some r → e.claim = none → e.lowering = none → lowers →
          e.tier ≠ 0 → f.ceiling.toNat < e.unitsOf e.tier → permitted < e.tier →
        ∃ t, exec c s = .next t
          ∧ s.onlyAnswers { t with entries := s.entries, tles := s.tles } (.completion tag 0x01 (byteOf p.val) .ok [7])
          ∧ (∀ q : PortNo, q ≠ p → t.entry q = s.entry q ∧ t.tle q = s.tle q)
          ∧ (r.target ≤ permitted →
              t.entry p = { e with policy := fieldsPolicy f } ∧ t.tle p = (s.tle p).queues offer)
          ∧ (permitted < r.target →
              t.entry p =
                  { e with
                    policy := fieldsPolicy f
                    cut := some
                      { r with
                        target := permitted, targetUnits := e.unitsOf permitted
                        deadline := min r.deadline (f.cutDeadline.toNat * 10000), cause := .ceiling } }
                ∧ t.tle p = ((s.tle p).queues offer).queues
                    (.cut permitted (max 1 (min r.deadline (f.cutDeadline.toNat * 10000) / 10000)))))
      ∧ (e.state ∈ [.powered, .cutting] → e.claim = none → e.lowering.isSome = true → lowers → e.tier ≠ 0 →
          f.ceiling.toNat < e.unitsOf e.tier →
        ∃ t, exec c s = .next t
          ∧ s.onlyAnswers { t with entries := s.entries, tles := s.tles }
              (.completion tag 0x01 (byteOf p.val) .ok [byteOf e.state.code])
          ∧ (∀ q : PortNo, q ≠ p → t.entry q = s.entry q ∧ t.tle q = s.tle q)
          ∧ t.entry p = { e with policy := fieldsPolicy f, waiting := e.waiting ++ [.ceilingCut] }
          ∧ t.tle p = (s.tle p).queues offer)
      ∧ (e.state = .claiming → granting → lowers →
        ∃ t, exec c s = .next t
          ∧ s.onlyAnswers { t with entries := s.entries, tles := s.tles } (.completion tag 0x01 (byteOf p.val) .ok [6])
          ∧ (∀ q : PortNo, q ≠ p → t.entry q = s.entry q ∧ t.tle q = s.tle q)
          ∧ t.entry p = { e with policy := fieldsPolicy f, deferredCeiling := true }
          ∧ t.tle p = (s.tle p).queues offer)

/-! ### PORT_ENABLE and PORT_DISABLE -/

/-- PORT_ENABLE (R150): BAD_PORT above 7; BAD_STATE in OFF while a line clear is being sent or a link test runs; in
OFF otherwise the consecutive faults are set to 0 and the port is VACANT with its SU in WATCH, or SENSING at once
where the input lies in a class band; in any other state nothing. No notice is given, and the result carries the
port's state after the command. -/
def Obligations.PortEnable : Prop :=
  ∀ (tag : Word16) (port : Byte) (s : State), s.takes →
    (8 ≤ port.toNat → ∃ t, exec (.portEnable tag port) s = .next t ∧ s.onlyAnswers t (.completion tag 0x02 port .badPort []))
      ∧ ∀ p : PortNo, port = byteOf p.val →
        ((s.entry p).state = .off → ((s.tle p).sendingClear = true ∨ (s.tle p).test.isSome = true) →
            ∃ t, exec (.portEnable tag port) s = .next t ∧ s.onlyAnswers t (.completion tag 0x02 port .badState []))
          ∧ ((s.entry p).state = .off → (s.tle p).sendingClear = false → (s.tle p).test = none →
            ∃ t, exec (.portEnable tag port) s = .next t
              ∧ t.entry p =
                  { s.entry p with
                    faults := 0, state := if (s.sense p).band.present then .sensing else .vacant }
              ∧ t.sense p =
                  { s.sense p with
                    mode := if (s.sense p).band.present then .debounce else .watch
                    attachTimer := if (s.sense p).band.present then some 20000 else none, detachTimer := none }
              ∧ (∀ q : PortNo, q ≠ p → t.entry q = s.entry q ∧ t.sense q = s.sense q)
              ∧ s.onlyAnswers { t with entries := s.entries, senses := s.senses }
                  (.completion tag 0x02 port .ok [if (s.sense p).band.present then 2 else 1]))
          ∧ ((s.entry p).state ≠ .off →
            ∃ t, exec (.portEnable tag port) s = .next t
              ∧ s.onlyAnswers t (.completion tag 0x02 port .ok [byteOf (s.entry p).state.code]))

/-- PORT_DISABLE (R151, R152, R15). Without power: in OFF it completes OK and nothing changes; in VACANT, SENSING,
STARVED, CLEARING and FAULTED the port is torn down to OFF with no notice, its SU goes to DISABLED, the commands bound
to it complete CLEARED, and the command completes OK with the state it met. With power: PEN goes off at once, a line
clear of 2 ms is begun for the command, the port is torn down in the same way, and the command stays open until
CLEAR_SENT. That the SU's detach-reported flag is cleared on its way to DISABLED is the model's choice (entry 45). -/
def Obligations.PortDisable : Prop :=
  ∀ (tag : Word16) (p : PortNo) (s : State), s.takesLong →
    ((s.entry p).state = .off → ∃ t, exec (.portDisable tag (byteOf p.val)) s = .next t
        ∧ s.onlyAnswers t (.completion tag 0x03 (byteOf p.val) .ok [0]))
      ∧ ((s.entry p).state ∈ [.vacant, .sensing, .starved, .clearing, .faulted] → s.poolQuiet p → s.busConsistent →
          s.offWithoutPen p → s.noSync →
        ∃ t, exec (.portDisable tag (byteOf p.val)) s = .next t
          ∧ s.tornDownAlone t p (s.entry p) (s.tle p) .off
          ∧ t.sense p =
              { s.sense p with mode := .disabled, attachTimer := none, detachTimer := none, detachReported := false }
          ∧ s.told t false p []
              (s.boundCompletions p .cleared
                ++ [.completion tag 0x03 (byteOf p.val) .ok [byteOf (s.entry p).state.code]]) (s.otherSlots p))
      ∧ ((s.entry p).state ∈ [.powering, .powered, .claiming, .cutting] → s.poolQuiet p → s.busConsistent → s.offWithoutPen p →
        s.noSync →
        ∃ t, exec (.portDisable tag (byteOf p.val)) s = .next t
          ∧ s.tornDownAlone t p (s.entry p) ((s.tle p).clearing (some s.qe.nextOrder)) .off
          ∧ t.sense p = { s.sense p with mode := .disabled, attachTimer := none, detachTimer := none, detachReported := false }
          ∧ s.told t false p [] (s.boundCompletions p .cleared)
              (s.otherSlots p ++
                [{ order := s.qe.nextOrder, tag := tag, code := 0x03, port := byteOf p.val, bound := some p
                   kind := .portDisable (s.entry p).state }]))

/-! ### SET_BUDGET -/

/-- SET_BUDGET (R132 to R134, R140): a target above 4000 or another preemption value completes BAD_PARAM and nothing
changes; else target and preemption enable are written and effective capacity is the greater of target and committed.
With committed at or below the target after its pass the command completes OK, last, with target and committed; else
it is open, and is the only SET_BUDGET open. An open one has been completed SUPERSEDED before, with the target it had
written and committed at that moment. Committed of the OK is read at the end of the event (the model's reading, entry
12). A target below committed, with nobody waiting, orders the SHRINK cuts of its evaluation (R135, R136): of leased ports
in POWERED in victim order until they cover the excess, and the command stays open. -/
def Obligations.SetBudgetWritesTheAccount : Prop :=
  ∀ (tag target : Word16) (preemption : Byte) (s : State), s.takesLong →
    (4000 < target.toNat ∨ 2 ≤ preemption.toNat →
        ∃ t, exec (.setBudget tag target preemption) s = .next t
          ∧ s.onlyAnswers t (.completion tag 0x04 0xFF .badParam []))
      ∧ (target.toNat ≤ 4000 → preemption.toNat < 2 →
        ∃ t, exec (.setBudget tag target preemption) s = .next t
          ∧ t.pool.target = target.toNat ∧ t.pool.preemption = decide (preemption = 1)
          ∧ t.pool.effective = max t.pool.target t.pool.committed
          ∧ ((s.qe.slots.filter fun x => x.kind == .setBudget).map fun x =>
              Report.completion x.tag x.code x.port .superseded (le16 s.pool.target ++ le16 s.pool.committed))
              <+: t.qe.backlog.drop s.qe.backlog.length
          ∧ (t.pool.committed ≤ t.pool.target →
              t.qe.backlog.getLast? =
                some (.completion tag 0x04 0xFF .ok (le16 target.toNat ++ le16 t.pool.committed))
              ∧ t.qe.openBudgets = 0)
          ∧ (t.pool.target < t.pool.committed →
              t.qe.slots.filter (fun x => x.kind == .setBudget) =
                [{ order := s.qe.nextOrder, tag := tag, code := 0x04, port := 0xFF, bound := none, kind := .setBudget }])
          ∧ (s.pool.waitList = [] → s.pool.committed ≤ target.toNat → s.qe.openBudgets = 0 →
              t.pool =
                  { s.pool with
                    target := target.toNat, effective := target.toNat, preemption := decide (preemption = 1) }
                ∧ s.onlyAnswers { t with pool := s.pool }
                    (.completion tag 0x04 0xFF .ok (le16 target.toNat ++ le16 s.pool.committed))))
      ∧ (
    let incoming := (allPorts.map fun p =>
      if (s.entry p).state = .cutting then (s.entry p).held - ((s.entry p).cut.elim (s.entry p).held fun c => c.targetUnits)
      else 0).sum
    let excess : Int := (s.pool.committed : Int) - incoming - target.toNat
    let victim (p : PortNo) : Prop :=
      ((s.entry p).state = .powered
          ∨ (s.entry p).state = .claiming ∧ ((s.entry p).claim.any fun c => decide (c.phase ≠ .granting)) = true)
        ∧ (s.entry p).tier ≠ 0 ∧ (s.entry p).lowering = none
    let s' : State :=
      { s with
        pool :=
          { s.pool with
            target := target.toNat, effective := s.pool.committed, preemption := decide (preemption = 1) } }
    preemption.toNat < 2 → target.toNat ≤ 4000 → target.toNat < s.pool.committed → 0 < excess → s.pool.waitList = [] →
    s.qe.openBudgets = 0 → (∃ p : PortNo, victim p) → (∀ p : PortNo, victim p → (s.entry p).state = .powered) →
    (∀ p : PortNo, (s.tle p).waits .cut = false) →
    ∃ vs : List PortNo, s'.victimsFor excess victim vs
      ∧ ∃ t, exec (.setBudget tag target preemption) s = .next t ∧ s'.cutsAll { t with qe := s.qe } vs .shrink
          ∧ s.told t true 0 [] []
              (s.qe.slots ++
                [{ order := s.qe.nextOrder, tag := tag, code := 0x04, port := 0xFF, bound := none, kind := .setBudget }]))

/-! ### DECIDE -/

/-- DECIDE refused (R98 checks 2 to 5): BAD_PARAM for another verdict or for claim tag 0; NO_CLAIM where the port has
no claim in AWAIT_HOST with the tag; BAD_PARAM for a granted tier at or below the tier in force, above the tier
claimed, or above the ceiling. Nothing changes. DECIDE with verdict DENY (R98, R96): the claim is removed, the port is
POWERED with its lease as it stood, DENY(HOST_DENIED) is queued, CLAIM_DENIED is given and then the completion OK with
the claim tag and phase none. -/
def Obligations.DecideRefusedOrDenied : Prop :=
  ∀ (tag claimTag : Word16) (p : PortNo) (verdict tier : Byte) (s : State), s.takes →
    (verdict.toNat ∉ [1, 2] ∨ claimTag = 0 →
        ∃ t, exec (.decide tag (byteOf p.val) claimTag verdict tier) s = .next t
          ∧ s.onlyAnswers t (.completion tag 0x05 (byteOf p.val) .badParam []))
      ∧ (verdict.toNat ∈ [1, 2] → claimTag ≠ 0 →
          ((s.entry p).claim.any fun c => c.phase = .awaitHost && c.tag = claimTag) = false →
        ∃ t, exec (.decide tag (byteOf p.val) claimTag verdict tier) s = .next t
          ∧ s.onlyAnswers t (.completion tag 0x05 (byteOf p.val) .noClaim []))
      ∧ (verdict.toNat = 1 → claimTag ≠ 0 → ∀ c : ClaimRec, (s.entry p).claim = some c → c.phase = .awaitHost →
          c.tag = claimTag →
          (tier.toNat ≤ (s.entry p).tier ∨ c.tierClaimed < tier.toNat
            ∨ (s.entry p).policy.ceiling < (s.entry p).unitsOf tier.toNat) →
        ∃ t, exec (.decide tag (byteOf p.val) claimTag verdict tier) s = .next t
          ∧ s.onlyAnswers t (.completion tag 0x05 (byteOf p.val) .badParam []))
      ∧ (∀ c : ClaimRec, (s.entry p).claim = some c → c.phase = .awaitHost → c.tag ≠ 0 →
        (s.pool.waitList.all fun w => w.port != p) = true →
        ((s.tle p).queue.filter fun x => x.frame.kind = .grant || x.frame.kind = .deny).length < 2 →
        ∃ t, exec (.decide tag (byteOf p.val) c.tag 2 tier) s = .next t
          ∧ t.entry p = { s.entry p with claim := none, state := .powered }
          ∧ t.tle p =
              { s.tle p with
                queue := (s.tle p).queue ++ [{ frame := .deny c.tierClaimed .hostDenied c.moduleClaimId, collisions := 0 }] }
          ∧ (∀ q : PortNo, q ≠ p → t.entry q = s.entry q ∧ t.tle q = s.tle q)
          ∧ t.senses = s.senses ∧ t.psi = s.psi ∧ t.pool = s.pool
          ∧ s.told t true p [.claimDenied c.tag .hostDenied]
              [.completion tag 0x05 (byteOf p.val) .ok (le16 c.tag.toNat ++ [0])] s.qe.slots)

/-- DECIDE with verdict GRANT and nobody waiting (R99, R24, R37, R102): where the increase fits, the claim is in
GRANTING at the granted tier, the port holds that tier's units, committed has risen by the increase, the lease timer
stands still and PSI is asked for a raising write; where it does not and the wait limit is above 0, the claim is in
AWAIT_BUDGET with its wait limit running and a TIER entry with that need. With a wait limit of 0 it has that one pass:
it is denied NO_BUDGET at the end of it (R36), with DENY queued, notice CLAIM_DENIED, the port POWERED, no entry left
and no preemption. Tier and lease are as they were, and the completion carries the phase. With preemption enabled the
claim that waits makes BP order the PREEMPT cuts (R35, R126 to R129): of POWERED, leased, preemptible ports of a lower
priority in victim order until they cover the shortfall. -/
def Obligations.DecideGrants : Prop :=
  ∀ (tag : Word16) (p : PortNo) (tier : Byte) (s : State), s.takes → s.busConsistent → s.pool.waitList = [] →
    s.pool.effective = s.pool.target → s.pool.committed ≤ s.pool.target →
    ∀ c : ClaimRec, (s.entry p).claim = some c → c.phase = .awaitHost → c.tag ≠ 0 →
    (s.entry p).tier < tier.toNat → tier.toNat ≤ c.tierClaimed →
    (s.entry p).unitsOf tier.toNat ≤ (s.entry p).policy.ceiling →
    (s.entry p).held ≤ (s.entry p).unitsOf tier.toNat →
    (s.pool.committed + ((s.entry p).unitsOf tier.toNat - (s.entry p).held) ≤ s.pool.target →
      ∃ t, exec (.decide tag (byteOf p.val) c.tag 1 tier) s = .next t
        ∧ t.entry p =
            { s.entry p with
              held := (s.entry p).unitsOf tier.toNat
              claim := some { c with phase := .granting, granted := some tier.toNat, timer := none }
              lease := (s.entry p).lease.map fun l => { l with running := false } }
        ∧ t.writeAsked p { value := (s.entry p).unitsOf tier.toNat, dir := .raise } ∧ s.busGoesOn t
        ∧ (t.power p).applied = (s.power p).applied ∧ (t.power p).pen = (s.power p).pen
        ∧ (t.power p).settle = (s.power p).settle
        ∧ t.tle p = s.tle p ∧ t.sense p = s.sense p ∧ s.sameOthers t p
        ∧ t.pool.committed = s.pool.committed + ((s.entry p).unitsOf tier.toNat - (s.entry p).held)
        ∧ t.pool.waitList = [] ∧ t.pool.target = s.pool.target ∧ t.pool.effective = s.pool.effective
        ∧ s.told t true p [] [.completion tag 0x05 (byteOf p.val) .ok (le16 c.tag.toNat ++ [3])] s.qe.slots)
      ∧ (s.pool.target < s.pool.committed + ((s.entry p).unitsOf tier.toNat - (s.entry p).held) →
          (s.entry p).policy.waitLimit ≠ 0 → s.pool.preemption = false → s.pool.arrival < 4294967295 →
        ∃ t, exec (.decide tag (byteOf p.val) c.tag 1 tier) s = .next t
          ∧ t.entry p =
              { s.entry p with
                claim := some
                  { c with
                    phase := .awaitBudget, granted := some tier.toNat
                    timer := some ((s.entry p).policy.waitLimit * 100000) } }
          ∧ t.pool =
              { s.pool with
                arrival := s.pool.arrival + 1
                waitList :=
                  [{ port := p, kind := .tier, need := (s.entry p).unitsOf tier.toNat - (s.entry p).held
                     priority := (s.entry p).policy.priority, arrival := s.pool.arrival }] }
          ∧ (∀ q : PortNo, q ≠ p → t.entry q = s.entry q) ∧ t.senses = s.senses ∧ t.psi = s.psi ∧ t.tles = s.tles
          ∧ s.told t true p [] [.completion tag 0x05 (byteOf p.val) .ok (le16 c.tag.toNat ++ [2])] s.qe.slots)
      ∧ (
        let need := (s.entry p).unitsOf tier.toNat - (s.entry p).held
        let incoming := (allPorts.map fun q =>
          if (s.entry q).state = .cutting then
            (s.entry q).held - ((s.entry q).cut.elim (s.entry q).held fun r => r.targetUnits)
          else 0).sum
        let shortfall : Int := (need : Int) - ((s.pool.target : Int) - s.pool.committed) - incoming
        let eligible (q : PortNo) : Prop :=
          (s.entry q).state = .powered ∧ (s.entry q).tier ≠ 0 ∧ (s.entry q).policy.preemptible = true
            ∧ (s.entry p).policy.priority < (s.entry q).policy.priority ∧ (s.entry q).lowering = none
        let s' : State :=
          { s with
            entries := s.entries.set p
              { s.entry p with
                claim := some
                  { c with
                    phase := .awaitBudget, granted := some tier.toNat
                    timer := some ((s.entry p).policy.waitLimit * 100000) } }
            pool :=
              { s.pool with
                arrival := s.pool.arrival + 1
                waitList :=
                  [{ port := p, kind := .tier, need := need, priority := (s.entry p).policy.priority
                     arrival := s.pool.arrival }] } }
        (s.entry p).state = .claiming → s.pool.target < s.pool.committed + need → (s.entry p).policy.waitLimit ≠ 0 →
        s.pool.preemption = true → s.pool.arrival < 4294967295 → (∀ q : PortNo, (s.tle q).waits .cut = false) →
        ∃ vs : List PortNo, s.victimsFor shortfall eligible vs
          ∧ ∃ t, exec (.decide tag (byteOf p.val) c.tag 1 tier) s = .next t
            ∧ s'.cutsAll { t with qe := s.qe } vs .preempt
            ∧ s.told t true p [] [.completion tag 0x05 (byteOf p.val) .ok (le16 c.tag.toNat ++ [2])] s.qe.slots)
      ∧ (s.pool.target < s.pool.committed + ((s.entry p).unitsOf tier.toNat - (s.entry p).held) →
          (s.entry p).policy.waitLimit = 0 → s.pool.arrival < 4294967295 → (s.tle p).answerRoom →
        ∃ t, exec (.decide tag (byteOf p.val) c.tag 1 tier) s = .next t
          ∧ t.entry p = { s.entry p with claim := none, state := .powered }
          ∧ t.tle p = (s.tle p).queues (.deny c.tierClaimed .noBudget c.moduleClaimId)
          ∧ t.pool = { s.pool with arrival := s.pool.arrival + 1 }
          ∧ (∀ q : PortNo, q ≠ p → t.entry q = s.entry q ∧ t.tle q = s.tle q) ∧ t.senses = s.senses ∧ t.psi = s.psi
          ∧ s.told t true p [.claimDenied c.tag .noBudget]
              [.completion tag 0x05 (byteOf p.val) .ok (le16 c.tag.toNat ++ [0])] s.qe.slots)

/-! ### REVOKE -/

/-- REVOKE that cuts nothing (R124 checks 2, 3, 4 and 8): BAD_PARAM for a target above 5 or another override,
BAD_STATE in GRANTING; while LC lowers the port the command waits there and stays open; on a port with no tier above
the target and no claim above it, OK at once with the tier in force and its units, at tier 0 the floor field on every
port (the model's reading, entry 30). Nothing else changes. A claim in an AWAIT phase above the target, on a port whose
tier in force is not above it, is denied (checks 5 and 8): DENY(REDUCING) queued, its TIER entry gone, CLAIM_DENIED, the
port in POWERED, and then OK at once; with nobody else waiting for budget. -/
def Obligations.RevokeThatCutsNothing : Prop :=
  ∀ (tag override : Word16) (p : PortNo) (target : Byte) (s : State), s.takesLong →
    let badParam := 5 < target.toNat
      ∨ override.toNat ≠ 0 ∧ (override.toNat < 10 ∨ 2550 < override.toNat ∨ override.toNat % 10 ≠ 0)
    let granting := (s.entry p).state = .claiming ∧ ((s.entry p).claim.any fun c => c.phase = .granting) = true
    (badParam → ∃ t, exec (.revoke tag (byteOf p.val) target override) s = .next t
        ∧ s.onlyAnswers t (.completion tag 0x06 (byteOf p.val) .badParam []))
      ∧ (¬ badParam → granting → ∃ t, exec (.revoke tag (byteOf p.val) target override) s = .next t
        ∧ s.onlyAnswers t (.completion tag 0x06 (byteOf p.val) .badState []))
      ∧ (¬ badParam → ¬ granting → ∀ l : Lowering, (s.entry p).lowering = some l →
          (match l with
           | .drop _ => false
           | _ => true) = true →
        ∃ t, exec (.revoke tag (byteOf p.val) target override) s = .next t
          ∧ t.entry p =
              { s.entry p with
                waiting := (s.entry p).waiting ++ [.revoke s.qe.nextOrder tag target.toNat override.toNat] }
          ∧ (∀ q : PortNo, q ≠ p → t.entry q = s.entry q)
          ∧ t.senses = s.senses ∧ t.psi = s.psi ∧ t.tles = s.tles ∧ t.pool = s.pool
          ∧ s.told t false p [] []
              (s.qe.slots ++
                [{ order := s.qe.nextOrder, tag := tag, code := 0x06, port := byteOf p.val, bound := some p, kind := .revoke }]))
      ∧ (¬ badParam → ¬ granting →
          ((s.entry p).claim.all fun c => c.granted.getD c.tierClaimed ≤ target.toNat) = true →
          (match (s.entry p).lowering with
           | none => true
           | some (.drop _) => true
           | some _ => false) = true →
          ((s.entry p).state ∉ [.powered, .cutting] ∨ (s.entry p).tier ≤ target.toNat) →
        ∃ t, exec (.revoke tag (byteOf p.val) target override) s = .next t
          ∧ s.onlyAnswers t
              (.completion tag 0x06 (byteOf p.val) .ok
                (byteOf (s.entry p).tier :: le16 ((s.entry p).unitsOf (s.entry p).tier))))
      ∧ (¬ badParam → (s.entry p).state = .claiming → (s.entry p).lowering = none → s.poolQuiet p → (s.tle p).answerRoom →
          (s.entry p).tier ≤ target.toNat → ∀ c : ClaimRec, (s.entry p).claim = some c → c.phase ≠ .granting →
          target.toNat < c.granted.getD c.tierClaimed →
        ∃ t, exec (.revoke tag (byteOf p.val) target override) s = .next t
          ∧ t.entry p = { s.entry p with state := .powered, claim := none }
          ∧ t.tle p = (s.tle p).queues (.deny c.tierClaimed .reducing c.moduleClaimId)
          ∧ (∀ q : PortNo, q ≠ p → t.entry q = s.entry q ∧ t.tle q = s.tle q)
          ∧ t.senses = s.senses ∧ t.psi = s.psi ∧ t.pool = { s.pool with waitList := [] }
          ∧ s.told t true p [.claimDenied c.tag .reducing]
              [.completion tag 0x06 (byteOf p.val) .ok
                (byteOf (s.entry p).tier :: le16 ((s.entry p).unitsOf (s.entry p).tier))] s.qe.slots)

/-- REVOKE that cuts (R124 checks 5 to 7, R111 to R113): in POWERED above the target a cut record with cause REVOKE
and this tag is created, with the override or else the policy's cut deadline, and a CUT is queued; in CUTTING a lower
target narrows the record and an equal or higher one leaves it; a claim in an AWAIT phase above the target is first
denied REDUCING. Units, tier and lease stand, and the command is open. -/
def Obligations.RevokeCuts : Prop :=
  ∀ (tag override : Word16) (p : PortNo) (target : Byte) (s : State), s.takesLong → target.toNat ≤ 5 →
    (override.toNat = 0 ∨ 10 ≤ override.toNat ∧ override.toNat ≤ 2550 ∧ override.toNat % 10 = 0) →
    (s.entry p).lowering = none → target.toNat < (s.entry p).tier →
    ((s.tle p).queue.all fun x => x.frame.kind != .cut && x.frame.kind != .deny && x.frame.kind != .grant) = true →
    let deadline := if override.toNat = 0 then (s.entry p).policy.cutDeadline * 10000 else override.toNat * 1000
    let slot : Slot :=
      { order := s.qe.nextOrder, tag := tag, code := 0x06, port := byteOf p.val, bound := some p, kind := .revoke }
    let record : CutRec :=
      { target := target.toNat, targetUnits := (s.entry p).unitsOf target.toNat, deadline := deadline, running := true
        cause := .revoke, cmdTag := some tag }
    let frame : TxItem := { frame := .cut target.toNat (max 1 (deadline / 10000)), collisions := 0 }
    ((s.entry p).state = .powered → (s.entry p).claim = none →
      ∃ t, exec (.revoke tag (byteOf p.val) target override) s = .next t
        ∧ t.entry p = { s.entry p with state := .cutting, cut := some record }
        ∧ t.tle p = { s.tle p with queue := (s.tle p).queue ++ [frame] }
        ∧ (∀ q : PortNo, q ≠ p → t.entry q = s.entry q ∧ t.tle q = s.tle q)
        ∧ t.senses = s.senses ∧ t.psi = s.psi ∧ t.pool = s.pool ∧ s.told t false p [] [] (s.qe.slots ++ [slot]))
      ∧ ((s.entry p).state = .cutting → (s.entry p).claim = none → ∀ r : CutRec, (s.entry p).cut = some r →
        ∃ t, exec (.revoke tag (byteOf p.val) target override) s = .next t
          ∧ (target.toNat < r.target →
              t.entry p = { s.entry p with
                cut := some { record with deadline := min r.deadline deadline, running := r.running } }
              ∧ t.tle p = { s.tle p with
                queue := (s.tle p).queue
                  ++ [{ frame := .cut target.toNat (max 1 (min r.deadline deadline / 10000)), collisions := 0 }] })
          ∧ (r.target ≤ target.toNat → t.entry p = s.entry p ∧ t.tle p = s.tle p)
          ∧ (∀ q : PortNo, q ≠ p → t.entry q = s.entry q ∧ t.tle q = s.tle q)
          ∧ t.senses = s.senses ∧ t.psi = s.psi ∧ t.pool = s.pool ∧ s.told t false p [] [] (s.qe.slots ++ [slot]))
      ∧ ((s.entry p).state = .claiming → s.poolQuiet p → ∀ c : ClaimRec, (s.entry p).claim = some c →
          c.phase ≠ .granting → target.toNat < c.granted.getD c.tierClaimed →
        ∃ t, exec (.revoke tag (byteOf p.val) target override) s = .next t
          ∧ t.entry p = { s.entry p with state := .cutting, claim := none, cut := some record }
          ∧ t.tle p = { s.tle p with
              queue := (s.tle p).queue
                ++ [{ frame := .deny c.tierClaimed .reducing c.moduleClaimId, collisions := 0 }, frame] }
          ∧ (∀ q : PortNo, q ≠ p → t.entry q = s.entry q ∧ t.tle q = s.tle q)
          ∧ t.senses = s.senses ∧ t.psi = s.psi ∧ t.pool = { s.pool with waitList := [] }
          ∧ s.told t true p [.claimDenied c.tag .reducing] [] (s.qe.slots ++ [slot]))

/-! ### LINE_CLEAR and RELAY -/

/-- LINE_CLEAR (R85, R82, R15, R16): BAD_STATE outside POWERING, POWERED, CLAIMING and CUTTING; there a line clear of
2 ms is begun for the command and the port is torn down to CLEARING, with notice LINE_CLEAR cause HOST and CLEARED for
the other commands bound to the port; the command stays open until CLEAR_SENT. The SU stays in ATTACHED mode. -/
def Obligations.LineClearTearsThePortDown : Prop :=
  ∀ (tag : Word16) (p : PortNo) (s : State), s.takesLong →
    ((s.entry p).state ∉ [.powering, .powered, .claiming, .cutting] →
        ∃ t, exec (.lineClear tag (byteOf p.val)) s = .next t
          ∧ s.onlyAnswers t (.completion tag 0x07 (byteOf p.val) .badState []))
      ∧ ((s.entry p).state ∈ [.powering, .powered, .claiming, .cutting] → s.poolQuiet p → s.busConsistent →
          s.offWithoutPen p → s.noSync →
        ∃ t, exec (.lineClear tag (byteOf p.val)) s = .next t
          ∧ s.tornDownAlone t p (s.entry p) ((s.tle p).clearing (some s.qe.nextOrder)) .clearing
          ∧ t.sense p = { s.sense p with mode := .attached, detachReported := false }
          ∧ s.told t true p [.lineClear .host] (s.boundCompletions p .cleared)
              (s.otherSlots p ++
                [{ order := s.qe.nextOrder, tag := tag, code := 0x07, port := byteOf p.val, bound := some p
                   kind := .lineClear }]))

/-- RELAY (R153): BAD_PORT above 7, BAD_PARAM for a byte count of 0 or above 16, BAD_STATE without a module record,
QUEUE_FULL where the engine holds two NOTE frames for RELAY commands; else a NOTE with the bytes and the command's tag
is placed at the back of the transmit queue and the command is open, bound to the port. -/
def Obligations.RelayQueuesANote : Prop :=
  ∀ (tag : Word16) (port count : Byte) (bytes : List Byte) (s : State), s.takesLong → bytes.length = 16 →
    (8 ≤ port.toNat → ∃ t, exec (.relay tag port count bytes) s = .next t
        ∧ s.onlyAnswers t (.completion tag 0x08 port .badPort []))
      ∧ ∀ p : PortNo, port = byteOf p.val →
        ((count.toNat = 0 ∨ 16 < count.toNat) → ∃ t, exec (.relay tag port count bytes) s = .next t
            ∧ s.onlyAnswers t (.completion tag 0x08 port .badParam []))
          ∧ (1 ≤ count.toNat → count.toNat ≤ 16 → (s.entry p).module = none →
            ∃ t, exec (.relay tag port count bytes) s = .next t
              ∧ s.onlyAnswers t (.completion tag 0x08 port .badState []))
          ∧ (1 ≤ count.toNat → count.toNat ≤ 16 → (s.entry p).module.isSome = true → 2 ≤ (s.tle p).notesHeld →
            ∃ t, exec (.relay tag port count bytes) s = .next t
              ∧ s.onlyAnswers t (.completion tag 0x08 port .queueFull []))
          ∧ (1 ≤ count.toNat → count.toNat ≤ 16 → (s.entry p).module.isSome = true → (s.tle p).notesHeld < 2 →
            ∃ t, exec (.relay tag port count bytes) s = .next t
              ∧ t.tle p =
                  { s.tle p with
                    queue := (s.tle p).queue ++
                      [{ frame := .note s.qe.nextOrder tag (bytes.take count.toNat), collisions := 0 }] }
              ∧ (∀ q : PortNo, q ≠ p → t.tle q = s.tle q)
              ∧ t.entries = s.entries ∧ t.senses = s.senses ∧ t.psi = s.psi ∧ t.pool = s.pool
              ∧ s.told t true p [] []
                  (s.qe.slots ++
                    [{ order := s.qe.nextOrder, tag := tag, code := 0x08, port := port, bound := some p
                       kind := .relay count }]))

/-! ### The queries -/

/-- QUERY_PORT and QUERY_POOL (R19, R38, R39, with the bytes of 11, QUERY_PORT sections and QUERY_POOL): nothing
changes but the backlog. A section above 3 completes BAD_PARAM, else QUERY_PORT completes OK with the section as the
entry stands, time remaining rounded down to the millisecond. QUERY_POOL completes OK with port 0xFF: the result's
64-bit field holds target, effective, committed, free, incoming, preemption enable and shrink, and its places hold the
wait list in order. The model's choice (entry 43): the value bytes of an absent record or tag are 0. -/
def Obligations.QueriesShowTheState : Prop :=
  ∀ (tag : Word16) (p : PortNo) (sect : Byte) (s : State), s.takes →
    (
    let e := s.entry p
    let place := ((s.pool.waitList.map fun w => w.port).zipIdx 1 |>.find? fun x => x.1 = p).elim 0 fun x => x.2
    ∃ t, exec (.queryPort tag (byteOf p.val) sect) s = .next t
      ∧ (4 ≤ sect.toNat → s.onlyAnswers t (.completion tag 0x09 (byteOf p.val) .badParam []))
      ∧ (sect.toNat = 0 →
          s.onlyAnswers t (.completion tag 0x09 (byteOf p.val) .ok
            ([0, byteOf e.state.code, byteOf e.cls.code, byteOf e.floor] ++ le16 e.held ++ le16 (s.applied p)
              ++ [byteOf
                    ((if (s.power p).pen then 1 else 0) + (if e.module.isSome then 2 else 0)
                      + (if e.lease.isSome then 4 else 0) + (if e.claim.isSome then 8 else 0)
                      + (if e.cut.isSome then 16 else 0) + (if e.deferredAnnounce.isSome then 32 else 0)
                      + (if e.deferredCeiling then 64 else 0))
                 , byteOf e.tier, byteOf e.faults, byteOf e.strikes]
              ++ le16 (e.lastDraw.elim 0xFFFF id) ++ [byteOf place])))
      ∧ (sect.toNat = 1 →
          s.onlyAnswers t (.completion tag 0x09 (byteOf p.val) .ok
            ([1, byteOf e.policy.priority] ++ le16 e.policy.ceiling
              ++ [if e.policy.autoGrant then 1 else 0, byteOf e.policy.leaseLength, byteOf e.policy.cutDeadline
                 , byteOf e.policy.decisionWindow, byteOf e.policy.waitLimit, if e.policy.preemptible then 1 else 0
                 , byteOf e.policy.retryLimit, byteOf e.policy.faultCooldown])))
      ∧ (sect.toNat = 2 → ∀ m : ModuleRec, e.module = some m → m.tiers.length ≤ 6 →
          s.onlyAnswers t (.completion tag 0x09 (byteOf p.val) .ok
            ([2, 1] ++ le32 m.id.toNat ++ [byteOf m.tiers.length] ++ m.tiers.flatMap le16
              ++ List.replicate (12 - 2 * m.tiers.length) 0)))
      ∧ (sect.toNat = 2 → e.module = none →
          s.onlyAnswers t (.completion tag 0x09 (byteOf p.val) .ok (([2, 0] : List Byte) ++ List.replicate 17 0)))
      ∧ (sect.toNat = 3 → e.claim = none → e.cut = none →
          s.onlyAnswers t (.completion tag 0x09 (byteOf p.val) .ok
            (([3] : List Byte) ++ (e.lease.elim (List.replicate 8 0) fun l =>
                [byteOf l.tier] ++ le16 l.units ++ [byteOf l.length] ++ le32 (l.remaining / 1000))
              ++ [(0 : Byte)])))
      ∧ (sect.toNat = 3 → e.cut = none → ∀ c : ClaimRec, e.claim = some c →
          s.onlyAnswers t (.completion tag 0x09 (byteOf p.val) .ok
            (([3] : List Byte) ++ (e.lease.elim (List.replicate 8 0) fun l =>
                [byteOf l.tier] ++ le16 l.units ++ [byteOf l.length] ++ le32 (l.remaining / 1000))
              ++ [(1 : Byte)] ++ le16 c.tag.toNat
              ++ [byteOf c.tierClaimed, c.moduleClaimId
                 , match c.phase with
                   | .awaitHost => 1
                   | .awaitBudget => 2
                   | .granting => 3
                 , byteOf (c.granted.elim 0 id)] ++ le16 (c.timer.elim 0 id / 1000))))
      ∧ (sect.toNat = 3 → e.claim = none → ∀ c : CutRec, e.cut = some c →
          s.onlyAnswers t (.completion tag 0x09 (byteOf p.val) .ok
            (([3] : List Byte) ++ (e.lease.elim (List.replicate 8 0) fun l =>
                [byteOf l.tier] ++ le16 l.units ++ [byteOf l.length] ++ le32 (l.remaining / 1000))
              ++ [(2 : Byte), byteOf c.target] ++ le16 c.targetUnits ++ le16 (c.deadline / 1000)
              ++ [match c.cause with
                  | .revoke => (1 : Byte)
                  | .expiry => 2
                  | .ceiling => 3
                  | .preempt => 4
                  | .shrink => 5
                 , if c.cmdTag.isSome then 1 else 0] ++ le16 (c.cmdTag.elim 0 BitVec.toNat)))))
      ∧ (
    let incoming := (allPorts.map fun p =>
      if (s.entry p).state = .cutting then (s.entry p).held - ((s.entry p).cut.elim (s.entry p).held fun c => c.targetUnits)
      else 0).sum
    let free := s.pool.target - s.pool.committed
    s.pool.target < 4096 → s.pool.effective < 4096 → s.pool.committed < 4096 → incoming < 4096 →
    s.pool.waitList.length ≤ 8 →
    (s.pool.waitList.all fun w => decide (w.need < 512 ∧ w.priority < 4)) = true →
    ∃ t, exec (.queryPool tag) s = .next t
      ∧ s.onlyAnswers t (.completion tag 0x0A 0xFF .ok s.poolSnapshot)
      ∧ s.poolSnapshot.length = 24
      ∧ (let r := s.poolSnapshot
         let field := (word32At r 0).toNat + 2 ^ 32 * (word32At r 4).toNat
         field % 2 ^ 12 = s.pool.target ∧ field / 2 ^ 12 % 2 ^ 12 = s.pool.effective
           ∧ field / 2 ^ 24 % 2 ^ 12 = s.pool.committed ∧ field / 2 ^ 36 % 2 ^ 12 = free
           ∧ field / 2 ^ 48 % 2 ^ 12 = incoming
           ∧ (field / 2 ^ 60 % 2 = 1 ↔ s.pool.preemption = true)
           ∧ (field / 2 ^ 61 % 2 = 1 ↔ s.pool.target < s.pool.effective)
           ∧ (List.range s.pool.waitList.length).map (fun i => (word16At r (8 + 2 * i)).toNat) =
               s.pool.waitList.map (fun w =>
                 w.need + 2 ^ 9 * w.port.val + 2 ^ 12 * (if w.kind = .tier then 1 else 0) + 2 ^ 13 * w.priority + 2 ^ 15)
           ∧ ∀ i : Fin 8, s.pool.waitList.length ≤ i.val → (word16At r (8 + 2 * i.val)).toNat = 0))

/-- QUERY_LINK (R174): BAD_PORT above 7, BAD_PARAM for a clear flag neither 0 nor 1; else OK with the thirteen
counters as they stand and the flag as given, and with clear yes all thirteen are 0 afterwards; nothing else changes,
and a refused command clears nothing. -/
def Obligations.QueryLinkTakesThenClears : Prop :=
  ∀ (tag : Word16) (port clear : Byte) (s : State), s.takes →
    (8 ≤ port.toNat → ∃ t, exec (.queryLink tag port clear) s = .next t
        ∧ s.onlyAnswers t (.completion tag 0x0B port .badPort []))
      ∧ ∀ p : PortNo, port = byteOf p.val →
        (2 ≤ clear.toNat → ∃ t, exec (.queryLink tag port clear) s = .next t
            ∧ s.onlyAnswers t (.completion tag 0x0B port .badParam []))
          ∧ (clear.toNat = 0 → ∃ t, exec (.queryLink tag port clear) s = .next t
            ∧ s.onlyAnswers t (.linkSnapshot tag p false (s.tle p).counters))
          ∧ (clear.toNat = 1 → ∃ t, exec (.queryLink tag port clear) s = .next t
            ∧ t.tle p = { s.tle p with counters := ⟨0, 0, 0, 0, 0, 0, 0, 0, 0, 0, 0, 0, 0⟩ }
            ∧ (∀ q : PortNo, q ≠ p → t.tle q = s.tle q)
            ∧ s.onlyAnswers { t with tles := s.tles } (.linkSnapshot tag p true (s.tle p).counters))

/-! ### LINK_TEST, SYNC and ABORT -/

/-- LINK_TEST (R175, R176): BAD_PORT above 7; BAD_PARAM for another mode or a pattern length of 0 or above 16;
BAD_STATE unless the port is in OFF, is sending no line clear and runs no link test; else the test starts with a 10 ms
timer, INTERNAL with its frame being sent and EXTERNAL waiting for the idle guard, and the command is open, bound to
the port. -/
def Obligations.LinkTestStarts : Prop :=
  ∀ (tag : Word16) (port mode length : Byte) (pattern : List Byte) (s : State), s.takesLong → pattern.length = 16 →
    (8 ≤ port.toNat → ∃ t, exec (.linkTest tag port mode length pattern) s = .next t
        ∧ s.onlyAnswers t (.completion tag 0x0C port .badPort []))
      ∧ ∀ p : PortNo, port = byteOf p.val →
        let badParam := 2 ≤ mode.toNat ∨ length.toNat = 0 ∨ 16 < length.toNat
        let free := (s.entry p).state = .off ∧ (s.tle p).sendingClear = false ∧ (s.tle p).test = none
        (badParam → ∃ t, exec (.linkTest tag port mode length pattern) s = .next t
            ∧ s.onlyAnswers t (.completion tag 0x0C port .badParam []))
          ∧ (¬ badParam → ¬ free → ∃ t, exec (.linkTest tag port mode length pattern) s = .next t
            ∧ s.onlyAnswers t (.completion tag 0x0C port .badState []))
          ∧ (¬ badParam → free → ∃ t, exec (.linkTest tag port mode length pattern) s = .next t
            ∧ t.tle p =
                { s.tle p with
                  receiving := false
                  test := some
                    { mode := if mode.toNat = 0 then .internal else .external, pattern := pattern.take length.toNat
                      order := s.qe.nextOrder, timer := 10000
                      phase := if mode.toNat = 0 then .sending (240 + 80 * (4 + length.toNat)) else .waiting } }
            ∧ (∀ q : PortNo, q ≠ p → t.tle q = s.tle q)
            ∧ t.entries = s.entries ∧ t.senses = s.senses ∧ t.psi = s.psi ∧ t.pool = s.pool
            ∧ s.told t true p [] []
                (s.qe.slots ++
                  [{ order := s.qe.nextOrder, tag := tag, code := 0x0C, port := port, bound := some p, kind := .linkTest }]))

/-- SYNC (R155): with no command open it completes OK at once with count 0; else it is open and waits for exactly the
commands open at its taking. The completion of any open command (R144, R147, R155): its slot is freed, its completion
is appended, and it leaves every SYNC's set. A SYNC whose set this empties completes OK with the count recorded, and
so does each SYNC that its completion empties in turn, every one behind the completions that emptied it: directly
behind them, ahead of what else the event completes, is the model's choice (entry 40). A SYNC whose set is not emptied
stays open with its set less the commands completed, and every other slot stays as it is. -/
def Obligations.SyncWaitsAndIsRelieved : Prop :=
  ∀ (tag : Word16) (status : Status) (result : List Byte) (s : State), s.takesLong →
    (s.qe.slots = [] → ∃ t, exec (.sync tag) s = .next t ∧ s.onlyAnswers t (.completion tag 0x0D 0xFF .ok [0]))
      ∧ (s.qe.slots ≠ [] → ∃ t, exec (.sync tag) s = .next t ∧ s.samePorts t ∧ s.told t true 0 [] []
            (s.qe.slots ++
              [{ order := s.qe.nextOrder, tag := tag, code := 0x0D, port := 0xFF, bound := none
                 kind := .sync (s.qe.slots.map fun sl => sl.order) s.qe.slots.length }]))
      ∧ ∀ sl ∈ s.qe.slots, ∃ ended : List Slot,
        let done := sl.order :: ended.map fun x => x.order
        let left := (s.qe.slots.filter fun x => !done.contains x.order).map fun x =>
          match x.kind with
          | .sync waitsFor count => { x with kind := .sync (waitsFor.filter fun o => !done.contains o) count }
          | _ => x
        s.qe.complete sl.order status result =
            { s.qe with
              slots := left
              backlog := s.qe.backlog ++ .completion sl.tag sl.code sl.port status result ::
                ended.map fun x =>
                  .completion x.tag x.code x.port .ok
                    [match x.kind with
                     | .sync _ count => byteOf count
                     | _ => 0] }
          ∧ done.Nodup
          ∧ (∀ (i : Fin 8) (x : Slot), ended[i.val]? = some x → x ∈ s.qe.slots
              ∧ (match x.kind with
                 | .sync waitsFor _ => waitsFor.all fun o => (done.take (i.val + 1)).contains o
                 | _ => false) = true)
          ∧ (left.all fun x =>
              match x.kind with
              | .sync waitsFor _ => !waitsFor.isEmpty
              | _ => true) = true

/-- ABORT (R156, R157): with no open command of the tag it completes NOT_FOUND and nothing changes; else the oldest
such command completes ABORTED with the result its own rule gives now, then the ABORT completes OK with that command's
code and port. A REVOKE that waits at LC and a NOTE still in the transmit queue are taken back; no other work is
touched. -/
def Obligations.AbortEndsTheOldest : Prop :=
  ∀ (tag target : Word16) (s : State), s.takes →
    ((s.qe.slots.all fun x => x.tag != target) = true →
        ∃ t, exec (.abort tag target) s = .next t ∧ s.onlyAnswers t (.completion tag 0x0E 0xFF .notFound []))
      ∧ (s.noSync → ∀ sl : Slot, s.qe.slots.find? (fun x => x.tag == target) = some sl →
        ∃ t, exec (.abort tag target) s = .next t
          ∧ (s.qe.slots.all fun x => decide (x.tag = target → sl.order ≤ x.order)) = true
          ∧ t.qe.slots = s.qe.slots.filter (fun x => x.order != sl.order)
          ∧ t.qe.backlog = s.qe.backlog ++
              [ .completion sl.tag sl.code sl.port .aborted
                  (match sl.kind, sl.bound with
                   | .portDisable taken, _ => [byteOf taken.code]
                   | .setBudget, _ => le16 s.pool.target ++ le16 s.pool.committed
                   | .revoke, some p => byteOf (s.entry p).tier :: le16 ((s.entry p).unitsOf (s.entry p).tier)
                   | .relay count, _ => [count]
                   | _, _ => [])
              , .completion tag 0x0E 0xFF .ok [sl.code, sl.port] ]
          ∧ t.qe.summaries = s.qe.summaries ∧ s.sameWindow t ∧ s.sameRest t
          ∧ t.senses = s.senses ∧ t.psi = s.psi ∧ t.pool = s.pool
          ∧ ∀ p : PortNo,
              t.entry p =
                  (if sl.kind = .revoke ∧ sl.bound = some p then
                    { s.entry p with
                      waiting := (s.entry p).waiting.filter fun w =>
                        match w with
                        | .revoke order _ _ _ => order != sl.order
                        | _ => true }
                   else s.entry p)
                ∧ t.tle p =
                  (if (match sl.kind with
                      | .relay _ => sl.bound == some p
                      | _ => false) = true then
                    { s.tle p with
                      queue := (s.tle p).queue.filter fun x =>
                        match x.frame with
                        | .note order _ _ => order != sl.order
                        | _ => true }
                   else s.tle p))

/-! ### Presence and faults -/

/-- PRESENCE_BAND_CHANGE (R41 to R43, R55), by the mode of the Sense Unit: DISABLED records the band alone; in WATCH
and DEBOUNCE a class band starts the attach debounce at 20 ms with the port in SENSING, and absence in DEBOUNCE ends
it with the port in VACANT; in ATTACHED an absence that begins starts the detach debounce at 10 ms and a class band
stops it. No notice is given. -/
def Obligations.BandChangeFollowsTheMode : Prop :=
  ∀ (p : PortNo) (b : Band) (s : State), s.ready → (s.sense p).band ≠ b →
    ∃ t, exec (.presenceBandChange p b) s = .next t
      ∧ (∀ q : PortNo, q ≠ p → t.entry q = s.entry q ∧ t.sense q = s.sense q)
      ∧ t.psi = s.psi ∧ t.tles = s.tles ∧ t.pool = s.pool ∧ s.quiet t
      ∧ ((s.sense p).mode = .disabled ∨ (s.sense p).mode = .watch ∧ b.present = false →
          t.entry p = s.entry p ∧ t.sense p = { s.sense p with band := b })
      ∧ ((s.sense p).mode = .watch ∨ (s.sense p).mode = .debounce → b.present = true →
          t.entry p = { s.entry p with state := .sensing }
            ∧ t.sense p =
              { s.sense p with band := b, mode := .debounce, attachTimer := some 20000, detachTimer := none })
      ∧ ((s.sense p).mode = .debounce → b.present = false →
          t.entry p = { s.entry p with state := .vacant }
            ∧ t.sense p = { s.sense p with band := b, mode := .watch, attachTimer := none, detachTimer := none })
      ∧ ((s.sense p).mode = .attached →
          t.entry p = s.entry p
            ∧ t.sense p =
              { s.sense p with
                band := b
                detachTimer :=
                  if b.present then none
                  else if (s.sense p).band.present then some 10000 else (s.sense p).detachTimer })

/-- ATTACH (R44, R24, R25, R33, R52): class and floor of the band are written, the SU goes to ATTACHED, ATTACH is
given, and with nobody waiting the floor request is answered: where the floor fits, committed and held units rise by
it, the port is POWERING and a raising write of the floor is asked for; where it does not, the port is STARVED with a
FLOOR entry of that need, and STARVED is given after ATTACH. Behind an entry that does not fit and stands before it, the
port is STARVED even where its floor would fit (R34). At the arrival counter's last value BP renumbers (R22): the live
numbers, of the wait list and of the grant order records, keep their order and become smaller than their count, and the counter
goes on from the count; so it does with the entry of an ATTACH. The model's choice (entry 4): outside the debounce the row has no
effect. -/
def Obligations.AttachAsksForTheFloor : Prop :=
  ∀ (p : PortNo) (s : State), s.ready →
    ((s.entry p).state ≠ .sensing ∨ (s.sense p).attachTimer = none → exec (.attach p) s = .next s)
      ∧ (∀ (cls : PowerClass) (floor : Nat), attachClass (s.sense p).band = some (cls, floor) →
        (s.entry p).state = .sensing → (s.sense p).mode = .debounce → (s.sense p).attachTimer.isSome = true →
        (s.entry p).held = 0 → s.busConsistent → s.pool.waitList = [] → s.pool.effective = s.pool.target →
        s.pool.committed ≤ s.pool.target → s.pool.arrival < 4294967295 →
        (s.pool.committed + floor ≤ s.pool.target →
          ∃ t, exec (.attach p) s = .next t
            ∧ t.entry p = { s.entry p with state := .powering, cls := cls, floor := floor, held := floor }
            ∧ t.sense p =
              { s.sense p with mode := .attached, attachTimer := none, detachTimer := none, detachReported := false }
            ∧ t.writeAsked p { value := floor, dir := .raise } ∧ s.busGoesOn t
            ∧ t.applied p = s.applied p ∧ (t.power p).pen = (s.power p).pen ∧ (t.power p).settle = (s.power p).settle
            ∧ t.tles = s.tles ∧ s.sameOthers t p
            ∧ t.pool = { s.pool with committed := s.pool.committed + floor, arrival := s.pool.arrival + 1 }
            ∧ s.told t false p [.attach cls] [] s.qe.slots)
          ∧ (s.pool.target < s.pool.committed + floor → s.pool.preemption = false →
            ∃ t, exec (.attach p) s = .next t
              ∧ t.entry p = { s.entry p with state := .starved, cls := cls, floor := floor }
              ∧ t.sense p =
                { s.sense p with mode := .attached, attachTimer := none, detachTimer := none, detachReported := false }
              ∧ t.psi = s.psi ∧ t.tles = s.tles ∧ s.sameOthers t p
              ∧ t.pool =
                { s.pool with
                  arrival := s.pool.arrival + 1
                  waitList :=
                    [{ port := p, kind := .floor, need := floor, priority := (s.entry p).policy.priority
                       arrival := s.pool.arrival }] }
              ∧ s.told t false p [.attach cls, .starved cls floor] [] s.qe.slots))
      ∧ (s.pool.arrival = 4294967295 →
          let live := (s.pool.waitList.map fun w => w.arrival) ++ allPorts.filterMap fun q => s.grantRecord q
          ∃ r : Nat → Nat, (∀ m ∈ live, r m < live.length ∧ ∀ n ∈ live, (r m < r n ↔ m < n))
            ∧ s.pool.advanceArrival =
              { s.pool with
                waitList := s.pool.waitList.map fun w => { w with arrival := r w.arrival }
                grantOrder := s.pool.grantOrder.map fun x => x.map r
                arrival := live.length })
      ∧ (∀ (cls : PowerClass) (floor : Nat), attachClass (s.sense p).band = some (cls, floor) →
          (s.entry p).state = .sensing → (s.sense p).mode = .debounce → (s.sense p).attachTimer.isSome = true →
          (s.entry p).held = 0 → s.pool.waitList = [] → s.pool.effective = s.pool.target →
          s.pool.committed ≤ s.pool.target → s.pool.arrival = 4294967295 →
          (∀ q : PortNo, ((s.grantRecord q).all fun n => decide (n < 4294967295)) = true) →
          s.pool.target < s.pool.committed + floor → s.pool.preemption = false →
          let records := (allPorts.filter fun q => (s.grantRecord q).isSome).length
          let older (n : Nat) := (allPorts.filter fun q => (s.grantRecord q).any fun m => decide (m < n)).length
          ∃ t, exec (.attach p) s = .next t
            ∧ t.entry p = { s.entry p with state := .starved, cls := cls, floor := floor }
            ∧ t.psi = s.psi ∧ t.tles = s.tles ∧ s.sameOthers t p
            ∧ t.pool =
              { s.pool with
                arrival := records + 1
                waitList :=
                  [{ port := p, kind := .floor, need := floor, priority := (s.entry p).policy.priority
                     arrival := records }]
                grantOrder := s.pool.grantOrder.map fun x => x.map older }
            ∧ s.told t false p [.attach cls, .starved cls floor] [] s.qe.slots)
      ∧ ∀ (cls : PowerClass) (floor : Nat), attachClass (s.sense p).band = some (cls, floor) →
        (s.entry p).state = .sensing → (s.sense p).mode = .debounce → (s.sense p).attachTimer.isSome = true →
        (s.entry p).held = 0 → ∀ w : WaitEntry, s.pool.waitList = [w] → w.kind = .floor → w.priority ≤ (s.entry p).policy.priority →
        w.arrival < s.pool.arrival → s.pool.target < s.pool.committed + w.need → s.pool.effective = s.pool.target →
        s.pool.committed ≤ s.pool.target → s.pool.arrival < 4294967295 → s.pool.preemption = false →
        ∃ t, exec (.attach p) s = .next t
          ∧ t.entry p = { s.entry p with state := .starved, cls := cls, floor := floor }
          ∧ t.sense p =
            { s.sense p with mode := .attached, attachTimer := none, detachTimer := none, detachReported := false }
          ∧ t.psi = s.psi ∧ t.tles = s.tles ∧ s.sameOthers t p
          ∧ t.pool =
            { s.pool with
              arrival := s.pool.arrival + 1
              waitList :=
                [ w
                , { port := p, kind := .floor, need := floor, priority := (s.entry p).policy.priority
                    arrival := s.pool.arrival } ] }
          ∧ s.told t false p [.attach cls, .starved cls floor] [] s.qe.slots

/-- DETACH (R57, R15): with units, in STARVED and in CLEARING the port is torn down to VACANT with notice DETACH and
DETACHED for the commands bound to it, its SU in WATCH; in FAULTED the state stays, the detach-reported flag is set
and DETACH is given. The pass of a teardown admits another port's FLOOR entry that now fits (R15 step 7, R26, R33). The
model's choices (entry 4): in OFF, VACANT and SENSING only the debounce is over, and without a debounce the row has no
effect. -/
def Obligations.DetachTearsThePortDown : Prop :=
  ∀ (p : PortNo) (s : State), s.ready →
    ((s.sense p).detachTimer = none → exec (.detach p) s = .next s)
      ∧ ((s.sense p).detachTimer.isSome = true → (s.sense p).band.present = false →
          (s.entry p).state ∈ [.powering, .starved, .powered, .claiming, .cutting, .clearing] →
          s.poolQuiet p → s.busConsistent → s.offWithoutPen p → s.noSync →
        ∃ t, exec (.detach p) s = .next t ∧ s.tornDownAlone t p (s.entry p) (s.tle p) .vacant
          ∧ t.sense p = { s.sense p with mode := .watch, attachTimer := none, detachTimer := none }
          ∧ s.told t false p [.detach] (s.boundCompletions p .detached) (s.otherSlots p))
      ∧ (∀ w : WaitEntry, (s.sense p).detachTimer.isSome = true → (s.sense p).band.present = false →
          (s.entry p).state ∈ [.powering, .powered, .claiming, .cutting] → s.pool.waitList = [w] → w.port ≠ p →
          w.kind = .floor → (s.entry w.port).state = .starved →
          s.pool.committed - (s.entry p).held + w.need ≤ s.pool.target → s.pool.effective = s.pool.target →
          s.pool.committed ≤ s.pool.target → s.busConsistent → s.offWithoutPen p → s.noSync →
        ∃ t, exec (.detach p) s = .next t ∧ t.tornDown p (s.entry p) (s.tle p) .vacant
          ∧ t.sense p = { s.sense p with mode := .watch, attachTimer := none, detachTimer := none }
          ∧ ((s.power p).pen = true → t.writeAsked p { value := 0, dir := .teardown })
          ∧ s.powersUp t w.port w.need ∧ s.sameBut t p w.port ∧ s.busGoesOn t
          ∧ t.pool =
            { s.pool with
              committed := s.pool.committed - (s.entry p).held + w.need, waitList := []
              grantOrder := s.pool.grantOrder.set p none }
          ∧ s.told t false p [.detach] (s.boundCompletions p .detached) (s.otherSlots p))
      ∧ ((s.sense p).detachTimer.isSome = true → (s.entry p).state = .faulted →
        ∃ t, exec (.detach p) s = .next t ∧ t.entries = s.entries ∧ t.psi = s.psi ∧ t.tles = s.tles ∧ t.pool = s.pool
          ∧ t.sense p = { s.sense p with detachTimer := none, detachReported := true }
          ∧ (∀ q : PortNo, q ≠ p → t.sense q = s.sense q) ∧ s.told t false p [.detach] [] s.qe.slots)
      ∧ ((s.sense p).detachTimer.isSome = true → (s.entry p).state ∈ [.off, .vacant, .sensing] →
        ∃ t, exec (.detach p) s = .next t ∧ s.onlySense t p ∧ t.sense p = { s.sense p with detachTimer := none })

/-- FAULT_INPUT_CHANGE and FAULT_INPUT_FILTERED (R56, R58, R8): a level other than the sampled one starts the 50 us
filter and a return to it stops the filter; a filtered level becomes the sampled one; asserted with PEN on it is a
fault: consecutive faults rise by 1 and the port is torn down, to FAULTED with its cooldown and notice FAULT below 3,
to OFF with FAULT and LOCKOUT at 3, and FAULTED for the commands bound to it; with PEN off, or released, nothing is
reported. The input is sampled in every mode of the Sense Unit, DISABLED too (the model's reading, entry 36). That a lockout
clears the SU's detach-reported flag is the model's choice (entry 45). -/
def Obligations.FaultInputIsFilteredAndTaken : Prop :=
  ∀ (p : PortNo) (low : Bool) (s : State), s.ready →
    ((s.sense p).fault ≠ low →
        ∃ t, exec (.faultInputChange p low) s = .next t ∧ s.onlySense t p
          ∧ t.sense p =
            { s.sense p with fault := low, filter := if low = (s.sense p).sampled then none else some 50 })
      ∧ ((s.sense p).filter.isSome = true → ((s.sense p).fault = false ∨ (s.power p).pen = false) →
        ∃ t, exec (.faultInputFiltered p) s = .next t ∧ s.onlySense t p
          ∧ t.sense p = { s.sense p with sampled := (s.sense p).fault, filter := none })
      ∧ ((s.sense p).filter.isSome = true → (s.sense p).fault = true → (s.power p).pen = true → (s.entry p).held ≠ 0 →
          s.poolQuiet p → s.busConsistent → s.noSync →
          (s.entry p).faults < 2 →
        ∃ t, exec (.faultInputFiltered p) s = .next t
          ∧ s.tornDownAlone t p { s.entry p with faults := (s.entry p).faults + 1 } (s.tle p) .faulted
          ∧ t.sense p =
            { s.sense p with sampled := true, filter := none, mode := .attached, detachReported := false }
          ∧ s.told t false p [.fault ((s.entry p).faults + 1)] (s.boundCompletions p .faulted) (s.otherSlots p))
      ∧ ((s.sense p).filter.isSome = true → (s.sense p).fault = true → (s.power p).pen = true → (s.entry p).held ≠ 0 →
          s.poolQuiet p → s.busConsistent → s.noSync →
          (s.entry p).faults = 2 →
        ∃ t, exec (.faultInputFiltered p) s = .next t
          ∧ s.tornDownAlone t p { s.entry p with faults := 3 } (s.tle p) .off
          ∧ t.sense p =
            { s.sense p with
              sampled := true, filter := none, mode := .disabled, attachTimer := none, detachTimer := none
              detachReported := false }
          ∧ s.told t false p [.fault 3, .lockout] (s.boundCompletions p .faulted) (s.otherSlots p))

/-- CLEAR_REST_END and FAULT_COOLDOWN_END (R61, R59): with the sampled fault input asserted the cooldown restarts at
the policy's present value and nothing else happens; else the port is SENSING with its attach debounce started where
the input lies in a class band, and else VACANT with its SU in WATCH and notice DETACH, which is left out where a
detach was already reported. -/
def Obligations.RestAndCooldownResense : Prop :=
  ∀ (p : PortNo) (s : State), s.ready →
    let there := (s.sense p).band.present
    let sense : SenseUnit :=
      { s.sense p with
        mode := if there then .debounce else .watch, attachTimer := if there then some 20000 else none
        detachTimer := none }
    let next : PortState := if there then .sensing else .vacant
    let said : List Notice := if there || (s.sense p).detachReported then [] else [.detach]
    ((s.entry p).state = .clearing → (s.entry p).clearRest.isSome = true →
        ∃ t, exec (.clearRestEnd p) s = .next t
          ∧ t.entry p = { s.entry p with state := next, clearRest := none } ∧ t.sense p = sense
          ∧ t.tle p = { s.tle p with detector := false, lowLeft := none }
          ∧ s.sameOthers t p ∧ t.psi = s.psi ∧ t.pool = s.pool ∧ s.told t false p said [] s.qe.slots)
      ∧ ((s.entry p).state = .faulted → (s.entry p).cooldown.isSome = true → (s.sense p).sampled = true →
        ∃ t, exec (.faultCooldownEnd p) s = .next t
          ∧ t.entry p = { s.entry p with cooldown := some ((s.entry p).policy.faultCooldown * 100000) }
          ∧ s.sameOthers t p ∧ t.senses = s.senses ∧ t.tles = s.tles ∧ t.psi = s.psi ∧ t.pool = s.pool ∧ s.quiet t)
      ∧ ((s.entry p).state = .faulted → (s.entry p).cooldown.isSome = true → (s.sense p).sampled = false →
        ∃ t, exec (.faultCooldownEnd p) s = .next t
          ∧ t.entry p = { s.entry p with state := next, cooldown := none } ∧ t.sense p = sense
          ∧ s.sameOthers t p ∧ t.tles = s.tles ∧ t.psi = s.psi ∧ t.pool = s.pool ∧ s.told t false p said [] s.qe.slots)

/-! ### The power stage -/

/-- LIMIT_WRITE_MADE (R46, R47, R49, R52, R56): a raising write sets the applied level and starts the 5 ms settle, and
of a POWERING port turns PEN on; where the fault input is then asserted the port faults, and the third fault locks it
out. A voided write and a write of 0 do nothing. The next write of the service list begins. The model's choice (entry
4): without a transfer the row has no effect. -/
def Obligations.RaisingWriteIsMade : Prop :=
  ∀ s : State, s.ready →
    (s.psi.transfer = none → exec .limitWriteMade s = .next s)
      ∧ ∀ x : Transfer, s.psi.transfer = some x → s.busConsistent →
        (x.void = true ∨ x.write.dir = .teardown →
          ∃ t, exec .limitWriteMade s = .next t
            ∧ t.entries = s.entries ∧ t.senses = s.senses ∧ t.tles = s.tles ∧ t.pool = s.pool ∧ s.quiet t
            ∧ s.busMovesOn t
            ∧ ∀ q : PortNo, (t.power q).pen = (s.power q).pen ∧ t.applied q = s.applied q
                ∧ (t.power q).settle = (s.power q).settle)
          ∧ (x.void = false → x.write.dir = .raise →
              ((s.entry x.port).state = .powering → (s.sense x.port).sampled = false) →
            ∃ t, exec .limitWriteMade s = .next t
              ∧ t.entries = s.entries ∧ t.senses = s.senses ∧ t.tles = s.tles ∧ t.pool = s.pool ∧ s.quiet t
              ∧ s.busMovesOn t
              ∧ t.applied x.port = x.write.value ∧ (t.power x.port).settle = some 5000
              ∧ (t.power x.port).pen = ((s.power x.port).pen || decide ((s.entry x.port).state = .powering))
              ∧ ∀ q : PortNo, q ≠ x.port →
                  (t.power q).pen = (s.power q).pen ∧ t.applied q = s.applied q ∧ (t.power q).settle = (s.power q).settle)
          ∧ (x.void = false → x.write.dir = .raise → (s.entry x.port).state = .powering →
              (s.sense x.port).sampled = true → (s.entry x.port).held ≠ 0 → (s.entry x.port).faults ≤ 2 →
              s.poolQuiet x.port → s.noSync →
            ∃ t, exec .limitWriteMade s = .next t
              ∧ t.tornDown x.port { s.entry x.port with faults := (s.entry x.port).faults + 1 } (s.tle x.port)
                  (if (s.entry x.port).faults = 2 then .off else .faulted)
              ∧ t.pool.committed = s.pool.committed - (s.entry x.port).held
              ∧ (∀ q : PortNo, q ≠ x.port → t.entry q = s.entry q ∧ t.sense q = s.sense q ∧ t.tle q = s.tle q)
              ∧ s.told t false x.port
                  (.fault ((s.entry x.port).faults + 1) :: if (s.entry x.port).faults = 2 then [.lockout] else [])
                  (s.boundCompletions x.port .faulted) (s.otherSlots x.port))

/-- LIMIT_WRITE_MADE of a lowering write (R48, R116, R118, R120, R125), with nobody waiting for budget and nothing at
LC: the applied level and the held units fall to the units of the tier lowered to, committed with them, and
LEASE_CHANGED is given. A release leaves tier and lease as its taking wrote them. A cut's conclusion writes the tier,
keeps the lease above tier 0 and discards it at tier 0, removes the cut record, enters POWERED, and completes the
REVOKEs of the port with the tier and its units: FORCED by the deadline, else OK. The drop of an announcement (R89 to
R91) leaves the floor: after LEASE_CHANGED a valid announcement replaces the module record, sets the faults to 0,
queues the OFFER and gives ANNOUNCED, an invalid one removes the record, is a protocol error and queues an OFFER of 0.
A release with another port's FLOOR entry waiting that now fits admits it (R26, R33). Then the events that waited at LC
are taken in the order they came (R119, R89, R118 step 8): two NOTEs give their notices behind LEASE_CHANGED; a REVOKE
above its target cuts; a RELEASE below the tier in force begins the next lowering, and what is behind it waits on. -/
def Obligations.LoweringWriteIsMade : Prop :=
  ∀ s : State, s.ready → s.busConsistent → s.noSync → ∀ x : Transfer, s.psi.transfer = some x → x.void = false →
    x.write.dir = .lower → s.pool.effective = s.pool.target →
    s.pool.committed ≤ s.pool.target → ∀ l : Lowering, (s.entry x.port).lowering = some l →
    let p := x.port
    let e := s.entry p
    let tier : Nat := match l with
      | .conclude tier _ => tier
      | _ => e.tier
    let concludes : Bool := match l with
      | .conclude _ _ => true
      | _ => false
    let units := e.unitsOf tier
    let revokes := s.qe.slots.filter fun sl => sl.bound = some p && sl.kind = .revoke
    let dropped : Option (List Byte) := match l with
      | .drop payload => some payload
      | _ => none
    (dropped = none → e.waiting = [] → s.pool.waitList = [] → units ≤ e.held →
    ∃ t, exec .limitWriteMade s = .next t
      ∧ t.entry p =
        { e with
          held := units, tier := tier, lowering := none
          state := if concludes then .powered else e.state
          cut := if concludes then none else e.cut
          lease :=
            if concludes then
              if tier = 0 then none else e.lease.map fun y => { y with tier := tier, units := units }
            else e.lease }
      ∧ t.applied p = x.write.value ∧ (t.power p).pen = (s.power p).pen ∧ (t.power p).settle = (s.power p).settle
      ∧ s.busMovesOn t
      ∧ (∀ q : PortNo, q ≠ p → t.entry q = s.entry q) ∧ t.senses = s.senses
      ∧ (∀ q : PortNo, { t.tle q with counters := (s.tle q).counters } = s.tle q)
      ∧ t.pool =
        { s.pool with
          committed := s.pool.committed - (e.held - units)
          grantOrder := if concludes ∧ tier = 0 then s.pool.grantOrder.set p none else s.pool.grantOrder }
      ∧ (concludes = false → s.told t false p [.leaseChanged tier units] [] s.qe.slots)
      ∧ (∀ forced : Bool, l = .conclude tier forced →
          s.told t false p [.leaseChanged tier units]
            (revokes.map fun sl =>
              .completion sl.tag sl.code sl.port (if forced then .forced else .ok) (byteOf tier :: le16 units))
            (s.qe.slots.filter fun sl => !(decide (sl.bound = some p) && decide (sl.kind = .revoke)))))
      ∧ (∀ (payload : List Byte) (id : Word32) (tiers : List Nat), dropped = some payload → e.tier = 0 →
          e.waiting = [] → s.pool.waitList = [] → e.floor ≤ e.held → (s.tle p).waits .offer = false →
          let written := le32 id.toNat ++ [byteOf tiers.length] ++ tiers.flatMap le16
          let k := (tiers.filter fun u => u ≤ e.policy.ceiling).length
          let ascending := (e.floor :: tiers).Pairwise (· < ·) ∧ (tiers.all fun u => u ≤ 400) = true
          let valid := payload = written ∧ 1 ≤ tiers.length ∧ tiers.length ≤ 6 ∧ ascending
          let invalid := payload.length ≠ 5 + 2 * (byteAt payload 4).toNat
            ∨ payload = written ∧ (tiers.all fun u => u ≤ 65535) = true ∧ ¬ ascending
          ∃ t, exec .limitWriteMade s = .next t
            ∧ t.applied p = x.write.value ∧ (t.power p).pen = (s.power p).pen ∧ (t.power p).settle = (s.power p).settle
            ∧ s.busMovesOn t
            ∧ (∀ q : PortNo, q ≠ p → t.entry q = s.entry q ∧ t.tle q = s.tle q) ∧ t.senses = s.senses
            ∧ t.pool = { s.pool with committed := s.pool.committed - (e.held - e.floor) }
            ∧ (valid →
                t.entry p =
                    { e with
                      held := e.floor, lowering := none, module := some { id := id, tiers := tiers }, faults := 0 }
                  ∧ t.tle p = (s.tle p).queues (.offer k e.policy.leaseLength)
                  ∧ s.told t false p [.leaseChanged 0 e.floor, .announced id k tiers] [] s.qe.slots)
            ∧ (invalid →
                t.entry p = { e with held := e.floor, lowering := none, module := none }
                  ∧ t.tle p = (s.tle p).wronged.queues (.offer 0 e.policy.leaseLength)
                  ∧ s.told t false p [.leaseChanged 0 e.floor] [] s.qe.slots))
      ∧ (∀ w : WaitEntry, l = .release → e.waiting = [] → e.unitsOf e.tier ≤ e.held → s.pool.waitList = [w] → w.port ≠ p →
          w.kind = .floor → (s.entry w.port).state = .starved →
          s.pool.committed - (e.held - e.unitsOf e.tier) + w.need ≤ s.pool.target →
          ∃ t, exec .limitWriteMade s = .next t
            ∧ t.entry p = { e with held := e.unitsOf e.tier, lowering := none } ∧ t.applied p = x.write.value
            ∧ (t.power p).pen = (s.power p).pen ∧ (t.power p).settle = (s.power p).settle
            ∧ s.powersUp t w.port w.need ∧ t.tle p = s.tle p ∧ t.senses = s.senses
            ∧ (∀ q : PortNo, q ≠ p → q ≠ w.port → t.entry q = s.entry q ∧ t.tle q = s.tle q)
            ∧ t.pool =
              { s.pool with
                committed := s.pool.committed - (e.held - e.unitsOf e.tier) + w.need, waitList := [] }
            ∧ s.told t false p [.leaseChanged e.tier (e.unitsOf e.tier)] [] s.qe.slots)
      ∧ (∀ a b : List Byte, e.waiting = [.frame .note a, .frame .note b] → dropped = none → e.module.isSome = true →
          s.pool.waitList = [] → units ≤ e.held → (concludes = true → revokes = []) →
          ∃ t, exec .limitWriteMade s = .next t
            ∧ t.entry p =
              { e with
                held := units, tier := tier, lowering := none, waiting := []
                state := if concludes then .powered else e.state
                cut := if concludes then none else e.cut
                lease :=
                  if concludes then
                    if tier = 0 then none else e.lease.map fun y => { y with tier := tier, units := units }
                  else e.lease }
            ∧ t.applied p = x.write.value ∧ s.busMovesOn t
            ∧ (∀ q : PortNo, q ≠ p → t.entry q = s.entry q) ∧ t.senses = s.senses
            ∧ s.told t false p [.leaseChanged tier units, .note a, .note b] [] s.qe.slots)
      ∧ (∀ (order : Nat) (tag : Word16) (target override : Nat), e.waiting = [.revoke order tag target override] →
          l = .release → e.state = .powered → e.claim = none → target < e.tier → e.unitsOf e.tier ≤ e.held →
          s.pool.waitList = [] → (s.tle p).waits .cut = false →
          let deadline := if override = 0 then e.policy.cutDeadline * 10000 else override * 1000
          ∃ t, exec .limitWriteMade s = .next t
            ∧ t.entry p =
              { e with
                held := e.unitsOf e.tier, lowering := none, waiting := [], state := .cutting
                cut := some
                  { target := target, targetUnits := e.unitsOf target, deadline := deadline, running := true
                    cause := .revoke, cmdTag := some tag } }
            ∧ t.tle p = (s.tle p).queues (.cut target (max 1 (deadline / 10000)))
            ∧ t.applied p = x.write.value ∧ s.busMovesOn t
            ∧ (∀ q : PortNo, q ≠ p → t.entry q = s.entry q ∧ t.tle q = s.tle q) ∧ t.senses = s.senses
            ∧ t.pool = { s.pool with committed := s.pool.committed - (e.held - e.unitsOf e.tier) }
            ∧ s.told t false p [.leaseChanged e.tier (e.unitsOf e.tier)] [] s.qe.slots)
      ∧ (∀ (b : Byte) (rest : List Waiting), e.waiting = .frame .release [b] :: rest → l = .release →
          e.state = .powered → e.claim = none → b.toNat < e.tier → e.unitsOf e.tier ≤ e.held → s.pool.waitList = [] →
          ∃ t, exec .limitWriteMade s = .next t
            ∧ t.entry p =
              { e with
                held := e.unitsOf e.tier, tier := b.toNat, lowering := some .release, waiting := rest
                lease :=
                  if b.toNat = 0 then none
                  else e.lease.map fun y => { y with tier := b.toNat, units := e.unitsOf b.toNat } }
            ∧ t.writeAsked p { value := e.unitsOf b.toNat, dir := .lower } ∧ t.applied p = x.write.value
            ∧ (∀ q : PortNo, q ≠ p → t.entry q = s.entry q ∧ t.tle q = s.tle q) ∧ t.tle p = s.tle p
            ∧ t.senses = s.senses
            ∧ t.pool =
              { s.pool with
                committed := s.pool.committed - (e.held - e.unitsOf e.tier)
                grantOrder := if b.toNat = 0 then s.pool.grantOrder.set p none else s.pool.grantOrder }
            ∧ s.told t false p [.leaseChanged e.tier (e.unitsOf e.tier)] [] s.qe.slots)

/-- SETTLED (R47, R53, R103): a POWERING port is POWERED at its floor with its receiver and line clear detector on,
and LEASE_CHANGED gives tier 0 and the floor; a claim in GRANTING queues its GRANT with the tier, its units, the
policy's lease length and the module claim id, and keeps that length; where two answers wait it replaces, in place, the
more recently queued of them, with a protocol error (R72). A POWERING port that becomes POWERED during a
shrink brings an evaluation (R135), which orders nothing while the cuts in flight cover the excess. Elsewhere only the
settle is over; the model's choice (entry 4): without a settle the row has no effect. -/
def Obligations.SettledReportIsTaken : Prop :=
  ∀ (p : PortNo) (s : State), s.ready →
    let granting := (s.entry p).state = .claiming ∧ ((s.entry p).claim.any fun c => c.phase = .granting) = true
    ((s.power p).settle = none → exec (.settled p) s = .next s)
      ∧ ((s.power p).settle.isSome = true → (s.entry p).state = .powering →
          (s.pool.effective = s.pool.target
            ∨ s.pool.committed ≤ s.pool.target + (allPorts.map fun q =>
                if (s.entry q).state = .cutting then
                  (s.entry q).held - ((s.entry q).cut.elim (s.entry q).held fun c => c.targetUnits)
                else 0).sum) →
        ∃ t, exec (.settled p) s = .next t
          ∧ t.entry p = { s.entry p with state := .powered }
          ∧ t.tle p =
            { s.tle p with
              receiver := true, detector := true, lowLeft := if (s.tle p).tapLow then some 1500 else none }
          ∧ t.power p = { s.power p with settle := none }
          ∧ s.sameOthers t p ∧ t.senses = s.senses ∧ t.pool = s.pool
          ∧ t.psi.service = s.psi.service ∧ t.psi.transfer = s.psi.transfer
          ∧ s.told t false p [.leaseChanged 0 (s.entry p).floor] [] s.qe.slots)
      ∧ ((s.power p).settle.isSome = true → granting → ∀ c : ClaimRec, (s.entry p).claim = some c →
          ((s.tle p).queue.filter fun x => x.frame.kind = .grant || x.frame.kind = .deny).length < 2 →
        ∃ t, exec (.settled p) s = .next t
          ∧ t.entry p =
            { s.entry p with claim := some { c with grantLength := some (s.entry p).policy.leaseLength } }
          ∧ t.tle p =
            (s.tle p).queues
              (.grant c.standsOn ((s.entry p).unitsOf c.standsOn) (s.entry p).policy.leaseLength c.moduleClaimId)
          ∧ t.power p = { s.power p with settle := none }
          ∧ s.sameOthers t p ∧ t.senses = s.senses ∧ t.pool = s.pool
          ∧ t.psi.service = s.psi.service ∧ t.psi.transfer = s.psi.transfer ∧ s.quiet t)
      ∧ ((s.power p).settle.isSome = true → granting → ∀ c : ClaimRec, (s.entry p).claim = some c →
          let grant : TxFrame :=
            .grant c.standsOn ((s.entry p).unitsOf c.standsOn) (s.entry p).policy.leaseLength c.moduleClaimId
          (s.tle p).boundReached grant →
          ∀ (a : List TxItem) (x : TxItem) (b : List TxItem), (s.tle p).queue = a ++ x :: b →
          sameBound grant x.frame = true → (b.all fun y => !sameBound grant y.frame) = true →
        ∃ t, exec (.settled p) s = .next t
          ∧ t.entry p =
            { s.entry p with claim := some { c with grantLength := some (s.entry p).policy.leaseLength } }
          ∧ t.tle p = { (s.tle p).wronged with queue := a ++ { frame := grant, collisions := 0 } :: b }
          ∧ t.power p = { s.power p with settle := none }
          ∧ s.sameOthers t p ∧ t.senses = s.senses ∧ t.pool = s.pool
          ∧ t.psi.service = s.psi.service ∧ t.psi.transfer = s.psi.transfer ∧ s.quiet t)
      ∧ ((s.power p).settle.isSome = true → (s.entry p).state ≠ .powering → ¬ granting →
        ∃ t, exec (.settled p) s = .next t
          ∧ t.entries = s.entries ∧ t.senses = s.senses ∧ t.tles = s.tles ∧ t.pool = s.pool
          ∧ t.power p = { s.power p with settle := none } ∧ s.sameOthers t p
          ∧ t.psi.service = s.psi.service ∧ t.psi.transfer = s.psi.transfer ∧ s.quiet t)

/-! ### Frames on the tap line -/

/-- FRAME_START, TRANSMIT_BEGIN and FRAME_SENT (R66, R71, R73 to R75, R176): a receiver that is on and free begins to
collect. On a free line the engine begins an ACK in front, else the ordered retransmission of the awaited frame with
its own sequence, else, with nothing awaited, the front of the queue with the transmit sequence, and the frame begun
leaves the queue; an EXTERNAL test begins its frame. A frame sent to its last cell is counted; an ACK leaves the
engine, another frame awaits its acknowledgment with the 3 ms window started. Nothing but the engine changes. A frame begins
only with the 200 us guard complete (R73); the end of a test frame leaves the guard alone. The model's choices: rows
that find nothing to do have no effect (entry 4), as FRAME_SENT under a low that a comparison is still to find (R76,
entry 44), and a frame's begin ends the rest the receiver ignores (entry 34). How frames come into the queue (R72): an OFFER,
CUT, GRANT or DENY goes to the back below its bound, and at its bound replaces in place the most recently queued frame of the
bound, an answer with a protocol error (where a collision has put one back, the newest of all: the model's choice, entry 38);
an owed ACK goes to the front, or replaces the waiting ACK in place. -/
def Obligations.FramesAreSent : Prop :=
  ∀ (p : PortNo) (s : State), s.ready →
    ((s.tle p).test = none →
      ((s.tle p).receiving = false → (s.tle p).receiver = true → (s.tle p).line = none → (s.tle p).ignoring = false →
          ∃ t, exec (.frameStart p) s = .next t ∧ s.onlyTle t p
            ∧ t.tle p = { s.tle p with receiving := true, guard := 0 })
        ∧ ((s.tle p).receiving = true ∨ (s.tle p).receiver = false ∨ (s.tle p).line ≠ none ∨ (s.tle p).ignoring = true →
          exec (.frameStart p) s = .next s)
        ∧ ((s.tle p).line = none → (s.tle p).tapLow = false → (s.tle p).receiving = false → (s.tle p).guard = 200 →
          ∀ (x : TxItem) (rest : List TxItem), (s.tle p).queue = x :: rest →
            (x.frame.kind = .ack ∨ (s.tle p).awaiting = none) →
          ∃ t, exec (.transmitBegin p) s = .next t ∧ s.onlyTle t p
            ∧ t.tle p =
              { s.tle p with
                line := some (.frame x (s.tle p).txSeq false (240 + 80 * (4 + x.frame.payload.length)))
                queue := rest, guard := 0, ignoring := false })
        ∧ ((s.tle p).line = none → (s.tle p).tapLow = false → (s.tle p).receiving = false → (s.tle p).guard = 200 →
          ∀ a : Awaited, (s.tle p).awaiting = some a →
            ((s.tle p).queue.head?.all fun x => x.frame.kind != .ack) = true →
          ((s.tle p).retransmit = true →
            ∃ t, exec (.transmitBegin p) s = .next t ∧ s.onlyTle t p
              ∧ t.tle p =
                { s.tle p with
                  line := some (.frame a.item a.seq true (240 + 80 * (4 + a.item.frame.payload.length)))
                  guard := 0, ignoring := false })
            ∧ ((s.tle p).retransmit = false → exec (.transmitBegin p) s = .next s)))
      ∧ ((s.tle p).guard ≠ 200 ∨ (s.tle p).line ≠ none ∨ (s.tle p).tapLow = true ∨ (s.tle p).receiving = true →
          exec (.transmitBegin p) s = .next s)
      ∧ (∀ x : LinkTest, (s.tle p).test = some x → (s.tle p).line = none →
          (x.phase = .waiting → (s.tle p).tapLow = false → (s.tle p).receiving = false → (s.tle p).guard = 200 →
            ∃ t, exec (.transmitBegin p) s = .next t ∧ s.onlyTle t p
              ∧ t.tle p =
                { s.tle p with
                  test := some { x with phase := .sending (240 + 80 * (4 + x.pattern.length)) }, guard := 0
                  ignoring := false })
            ∧ ((match x.phase with
                | .sending _ => true
                | _ => false) = true →
              ∃ t, exec (.frameSent p) s = .next t ∧ s.onlyTle t p
                ∧ t.tle p = { s.tle p with test := some { x with phase := .sent 0 } }))
      ∧ (∀ (x : TxItem) (seq : BitVec 4) (again : Bool) (left : Nat), (s.tle p).line = some (.frame x seq again left) →
        ((s.tle p).tapLow = true → left ≠ 0 → exec (.frameSent p) s = .next s)
        ∧ ((s.tle p).tapLow = false ∨ left = 0 →
          ∃ t, exec (.frameSent p) s = .next t ∧ s.onlyTle t p
            ∧ (x.frame.kind = .ack →
              t.tle p =
                { s.tle p with
                  line := none, guard := 0
                  counters := { (s.tle p).counters with framesSent := counted (s.tle p).counters.framesSent } })
            ∧ (x.frame.kind ≠ .ack →
              t.tle p =
                { s.tle p with
                  line := none, guard := 0
                  counters := { (s.tle p).counters with framesSent := counted (s.tle p).counters.framesSent }
                  awaiting := some { item := { frame := x.frame, collisions := 0 }, seq := seq }
                  retransmit := false, retries := if again then (s.tle p).retries else 0, window := some 3000 })))
      ∧ (∀ f : TxFrame, f.kind ∈ [.offer, .cut, .grant, .deny] →
          (¬ (s.tle p).boundReached f → s.onlyTle (s.queueFrame p f) p ∧ (s.queueFrame p f).tle p = (s.tle p).queues f)
          ∧ ((s.tle p).boundReached f → ∀ (a : List TxItem) (x : TxItem) (b : List TxItem), (s.tle p).queue = a ++ x :: b →
              sameBound f x.frame = true → (b.all fun y => !sameBound f y.frame) = true →
            s.onlyTle (s.queueFrame p f) p
              ∧ (s.queueFrame p f).tle p =
                { (if f.kind = .grant ∨ f.kind = .deny then (s.tle p).wronged else s.tle p) with
                  queue := a ++ { frame := f, collisions := 0 } :: b }))
      ∧ ∀ seq : BitVec 4,
        ((s.tle p).waits .ack = false →
          (s.tle p).oweAck seq = { s.tle p with queue := { frame := .ack seq, collisions := 0 } :: (s.tle p).queue })
        ∧ ∀ (a : List TxItem) (x : TxItem) (b : List TxItem), (s.tle p).queue = a ++ x :: b → x.frame.kind = .ack →
            (b.all fun y => y.frame.kind != .ack) = true →
          (s.tle p).oweAck seq = { s.tle p with queue := a ++ { frame := .ack seq, collisions := 0 } :: b }

/-- COLLISION (R76, R77, R78, R71): a low counts as a departure from 1 us after the release of a one or zero cell until the
next cell begins, and elsewhere in the frame's time the row has no effect; at such a moment the part itself has released TAP,
so that the line is low exactly where another side pulls it low (R62). On one the attempt is abandoned and counted, for the
port and for the frame; an ACK goes back to the front unless a newer one waits there, a first transmission to the front behind
any ACK, a retransmission stays awaited and ordered. The eighth in a row loses the link. The count stays with the frame where another overtakes it
(entry 17). The model's choice (entry 38): an OFFER, CUT, GRANT or DENY goes back to the front also where newer frames
fill the bound of its kind. The eighth collision of an ACK gives LINK_LOST with kind code 0 (entry 31). The cell is found
by the microseconds since the frame's begin (entry 44). -/
def Obligations.CollisionAbandonsTheFrame : Prop :=
  ∀ (p : PortNo) (s : State), s.ready →
    ∀ (x : TxItem) (seq : BitVec 4) (again : Bool) (left : Nat), (s.tle p).line = some (.frame x seq again left) →
    let x' : TxItem := { x with collisions := x.collisions + 1 }
    let tle : Tle :=
      { s.tle p with
        line := none, guard := 0
        counters := { (s.tle p).counters with collisions := counted (s.tle p).counters.collisions } }
    let since := 240 + 80 * (4 + x.frame.payload.length) - left
    let compared := ((frameCells (x.frame.wire seq))[since / 10]?.any fun c =>
      match c with
      | .one => decide (2 < since % 10)
      | .zero => decide (6 < since % 10)
      | .start => false) = true
    (¬ compared → exec (.collision p) s = .next s)
      ∧ (compared → (s.tle p).pullsLow = false ∧ (s.tle p).lineLow = (s.tle p).tapLow)
      ∧ (compared → x.collisions < 7 →
      ∃ t, exec (.collision p) s = .next t ∧ s.onlyTle t p
        ∧ (again = true →
          t.tle p = { tle with awaiting := (s.tle p).awaiting.map fun a => { a with item := x' } })
        ∧ (again = false → x.frame.kind = .ack →
          t.tle p =
            { tle with queue := if (s.tle p).waits .ack then (s.tle p).queue else x' :: (s.tle p).queue })
        ∧ (again = false → x.frame.kind ≠ .ack →
          t.tle p =
            { tle with
              queue :=
                (s.tle p).queue.takeWhile (fun y => decide (y.frame.kind = .ack)) |>.take 1
                  |> fun front => front ++ x' :: (s.tle p).queue.drop front.length }))
      ∧ (compared → x.collisions = 7 → s.poolQuiet p → s.busConsistent → s.offWithoutPen p → s.noSync →
        ∃ t, exec (.collision p) s = .next t ∧ s.linkLost t p tle x.frame)

/-- ACK_WINDOW_EXPIRY (R79, R81): while a frame is being received the window is out but waits for the end of that
reception; else, with a retry left, the retry count and the port's retries rise by 1 and a retransmission is ordered,
and with none the link is lost with the awaited frame. The model's choices: with no window the row has no effect (entry
4), and a reception that ends with no byte counts as a CRC error (entry 23). -/
def Obligations.AckWindowRetriesOrLoses : Prop :=
  ∀ (p : PortNo) (s : State), s.ready →
    let tle := s.tle p
    let retried : Tle :=
      { tle with
        window := none, retries := tle.retries + 1, retransmit := true
        counters := { tle.counters with retries := counted tle.counters.retries } }
    (tle.window = none → exec (.ackWindowExpiry p) s = .next s)
      ∧ (tle.window.isSome = true → tle.receiving = true →
        ∃ t, exec (.ackWindowExpiry p) s = .next t ∧ s.onlyTle t p ∧ t.tle p = { tle with window := some 0 })
      ∧ (tle.window.isSome = true → tle.receiving = false → ∀ a : Awaited, tle.awaiting = some a →
          (tle.retries < (s.entry p).policy.retryLimit →
            ∃ t, exec (.ackWindowExpiry p) s = .next t ∧ s.onlyTle t p ∧ t.tle p = retried)
          ∧ ((s.entry p).policy.retryLimit ≤ tle.retries → s.poolQuiet p → s.busConsistent → s.offWithoutPen p →
              s.noSync →
            ∃ t, exec (.ackWindowExpiry p) s = .next t ∧ s.linkLost t p tle a.item.frame))
      ∧ (tle.receiving = true → tle.test = none → tle.window = some 0 → tle.awaiting.isSome = true →
          tle.retries < (s.entry p).policy.retryLimit →
        ∃ t, exec (.frameReceived p []) s = .next t ∧ s.onlyTle t p
          ∧ t.tle p =
            { retried with
              receiving := false, guard := 0
              counters := { retried.counters with crcErrors := counted tle.counters.crcErrors } })

/-- FRAME_RECEIVED of a frame that is not delivered to LC (R66 to R70, R80, R104, R22): a broken one or one whose CRC
fails counts as a CRC error, one with a length above 18, an unknown kind code or a form R64 does not give counts as
malformed, and neither owes an ACK; a duplicate counts and owes its ACK again, which replaces a waiting one in place (R72); an
ACK that does not match counts as malformed; a matching one
ends the wait, the transmit sequence advances, the window and the retransmission end, and the RELAY of a NOTE
completes OK with its byte count. The ACK of a GRANT, with nobody waiting for budget, starts the lease: the lease record
is created or replaced with the granted tier, its units and the length kept, its time starts, the tier is the granted
one, the claim is gone, the port is POWERED, its grant order record takes the arrival counter, and LEASE_CHANGED is
given. Then a deferred ceiling cut is taken against the ceiling in force (R123): a CEILING cut to the highest tier within
it where it is below the units of the new tier, else nothing, and the flag is clear. After it a deferred announcement is
taken (R92): it drops the new lease to the floor and concludes such a cut, whose CUT stays queued. -/
def Obligations.ReceptionsAreCheckedFirst : Prop :=
  ∀ (p : PortNo) (bytes payload : List Byte) (kind : FrameKind) (seq : BitVec 4) (s : State), s.collects p →
    let tle := s.tle p
    let ended : Tle := { tle with receiving := false, guard := 0 }
    let malformed : Tle :=
      { ended with counters := { tle.counters with malformed := counted tle.counters.malformed } }
    ((match readReception bytes with
      | .broken _ => true
      | .badCrc _ => true
      | _ => false) = true →
        ∃ t, exec (.frameReceived p bytes) s = .next t ∧ s.onlyTle t p
          ∧ t.tle p = { ended with counters := { tle.counters with crcErrors := counted tle.counters.crcErrors } })
      ∧ (19 ≤ (byteAt bytes 1).toNat →
        ∃ t, exec (.frameReceived p bytes) s = .next t ∧ s.onlyTle t p
          ∧ t.tle p = { malformed with ignoring := true })
      ∧ (payload.length ≤ 18 → kind.accepted payload.length = false →
        ∃ t, exec (.frameReceived p (frameBytes kind seq payload)) s = .next t ∧ s.onlyTle t p ∧ t.tle p = malformed)
      ∧ (∀ code : BitVec 4, payload.length ≤ 18 → code.toNat ∈ unknownKinds →
        ∃ t, exec (.frameReceived p (codedFrame code seq payload)) s = .next t ∧ s.onlyTle t p ∧ t.tle p = malformed)
      ∧ (payload.length ≤ 18 → kind.accepted payload.length = true → kind ≠ .ack → tle.lastRx = some (seq, kind) →
          tle.waits .ack = false →
        ∃ t, exec (.frameReceived p (frameBytes kind seq payload)) s = .next t ∧ s.onlyTle t p
          ∧ t.tle p =
            { tle.delivers seq kind with
              counters := { tle.heard.counters with duplicates := counted tle.counters.duplicates } })
      ∧ (payload.length ≤ 18 → kind.accepted payload.length = true → kind ≠ .ack → tle.lastRx = some (seq, kind) →
          ∀ (a : List TxItem) (x : TxItem) (b : List TxItem), tle.queue = a ++ x :: b → x.frame.kind = .ack →
          (b.all fun y => y.frame.kind != .ack) = true →
        ∃ t, exec (.frameReceived p (frameBytes kind seq payload)) s = .next t ∧ s.onlyTle t p
          ∧ t.tle p =
            { tle.heard with
              queue := a ++ { frame := .ack seq, collisions := 0 } :: b
              counters := { tle.heard.counters with duplicates := counted tle.counters.duplicates } })
      ∧ ((tle.awaiting.all fun a => a.seq != seq) = true →
        ∃ t, exec (.frameReceived p (frameBytes .ack seq [])) s = .next t ∧ s.onlyTle t p
          ∧ t.tle p =
            { tle.heard with
              counters := { tle.heard.counters with malformed := counted tle.counters.malformed } })
      ∧ ∀ a : Awaited, tle.awaiting = some a → a.seq = seq →
        (a.item.frame.kind ≠ .grant →
        ∃ t, exec (.frameReceived p (frameBytes .ack seq [])) s = .next t
          ∧ t.tle p =
            { tle.heard with
              awaiting := none, window := none, retries := 0, retransmit := false, txSeq := tle.txSeq + 1 }
          ∧ (a.item.frame.kind ≠ .note → s.onlyTle t p)
          ∧ (∀ (order : Nat) (tag : Word16) (b : List Byte), a.item.frame = .note order tag b →
              t.entries = s.entries ∧ t.senses = s.senses ∧ t.psi = s.psi ∧ t.pool = s.pool
                ∧ (∀ q : PortNo, q ≠ p → t.tle q = s.tle q)
                ∧ (s.complete order .ok [byteOf b.length]).quiet t))
        ∧ (a.item.frame.kind = .grant →
        ∀ c : ClaimRec, (s.entry p).claim = some c → c.phase = .granting → (s.entry p).state = .claiming →
        ∀ length : Nat, c.grantLength = some length →
        s.pool.waitList = [] → s.pool.effective = s.pool.target → s.pool.committed ≤ s.pool.target →
        s.pool.arrival < 4294967295 →
        let e := s.entry p
        let units := e.unitsOf c.standsOn
        let within := e.module.elim 0 fun m => (m.tiers.filter fun u => u ≤ e.policy.ceiling).length
        let started : Entry :=
          { e with
            state := .powered, tier := c.standsOn, claim := none, deferredCeiling := false, deferredAnnounce := none
            lease := some
              { tier := c.standsOn, units := units, length := length, remaining := length * 1000000, running := true } }
        let acked : Tle :=
          { (s.tle p).heard with
            awaiting := none, window := none, retries := 0, retransmit := false, txSeq := (s.tle p).txSeq + 1 }
        let cuts := e.deferredCeiling = true ∧ e.policy.ceiling < units
        let cutFrame := TxFrame.cut within (max 1 (e.policy.cutDeadline * 10000 / 10000))
        (cuts → e.deferredAnnounce = none → c.standsOn ≠ 0 → within < c.standsOn → (s.tle p).waits .cut = false →
          ∃ t, exec (.frameReceived p (frameBytes .ack seq [])) s = .next t
            ∧ t.entry p =
              { started with
                state := .cutting
                cut := some
                  { target := within, targetUnits := e.unitsOf within, deadline := e.policy.cutDeadline * 10000
                    running := true, cause := .ceiling, cmdTag := none } }
            ∧ t.tle p = acked.queues cutFrame
            ∧ (∀ q : PortNo, q ≠ p → t.entry q = s.entry q ∧ t.tle q = s.tle q) ∧ t.senses = s.senses ∧ t.psi = s.psi
            ∧ t.pool =
              { s.pool with
                grantOrder := s.pool.grantOrder.set p (some s.pool.arrival), arrival := s.pool.arrival + 1 }
            ∧ s.told t false p [.leaseChanged c.standsOn units] [] s.qe.slots)
        ∧ (∀ payload : List Byte, e.deferredAnnounce = some payload → c.standsOn ≠ 0 → s.busConsistent →
            (cuts → within < c.standsOn ∧ (s.tle p).waits .cut = false ∧ e.waiting = []
              ∧ (s.qe.slots.all fun sl => !(decide (sl.bound = some p) && decide (sl.kind = .revoke))) = true) →
            (¬ cuts → e.cut = none) →
          ∃ t, exec (.frameReceived p (frameBytes .ack seq [])) s = .next t
            ∧ t.entry p = { started with tier := 0, lease := none, cut := none, lowering := some (.drop payload) }
            ∧ (cuts → t.tle p = acked.queues cutFrame) ∧ (¬ cuts → t.tle p = acked)
            ∧ s.lowersTo t p e.floor
            ∧ t.pool =
              { s.pool with grantOrder := s.pool.grantOrder.set p none, arrival := s.pool.arrival + 1 }
            ∧ s.told t false p [.leaseChanged c.standsOn units] [] s.qe.slots)
        ∧ (¬ cuts → e.deferredAnnounce = none →
        ∃ t, exec (.frameReceived p (frameBytes .ack seq [])) s = .next t
          ∧ t.entry p = started
          ∧ t.tle p = acked
          ∧ (∀ q : PortNo, q ≠ p → t.entry q = s.entry q ∧ t.tle q = s.tle q) ∧ t.senses = s.senses ∧ t.psi = s.psi
          ∧ t.pool =
            { s.pool with
              grantOrder := s.pool.grantOrder.set p (some s.pool.arrival), arrival := s.pool.arrival + 1 }
          ∧ s.told t false p [.leaseChanged c.standsOn units] [] s.qe.slots))

/-! ### Frames delivered to the Lease Controller -/

/-- FRAME_RECEIVED of a CLAIM (R94, R95, R23, R25, R102): without a module record DENY(BAD_TIER), in CUTTING
DENY(REDUCING), in CLAIMING DENY(BUSY) or, with the answer bound reached or a DENY(BUSY) waiting, no answer; tier 0,
above the module's tiers or not above the tier in force DENY(BAD_TIER); above the ceiling DENY(OVER_OFFER); protocol
errors counted as R94 gives. Else a claim record is opened with the next claim tag: for the host in AWAIT_HOST with
its decision window and notice CLAIM, or, with auto-grant where the increase fits and nobody waits, at once in
GRANTING. Where the increase does not fit, the claim is in AWAIT_BUDGET with its wait limit and a TIER entry of that need, and
with preemption enabled makes BP order the PREEMPT cuts (R35, R126 to R129); at a wait limit of 0 it is denied NO_BUDGET at
the end of its pass (R36), with CLAIM_DENIED, the port in POWERED and no entry left. Every answer stands behind the ACK. -/
def Obligations.ClaimIsJudged : Prop :=
  ∀ (p : PortNo) (seq : BitVec 4) (tier mcid : Byte) (s : State), s.hears p seq .claim →
    (s.entry p).lowering = none →
    let e := s.entry p
    let tle := (s.tle p).delivers seq .claim
    let c := Instr.frameReceived p (frameBytes .claim seq [tier, mcid])
    let busy := ((s.tle p).queue.any fun x => x.frame.isBusy) = true
    let denied (r : DenyReason) := tle.queues (.deny tier.toNat r mcid)
    let badTier := tier.toNat = 0 ∨ e.tierCount < tier.toNat ∨ tier.toNat ≤ e.tier
    let claim : ClaimRec :=
      { tag := BitVec.ofNat 16 s.pool.claimTag, tierClaimed := tier.toNat, moduleClaimId := mcid, phase := .awaitHost
        granted := none, timer := some (e.policy.decisionWindow * 10000), grantLength := none }
    let nextTag := if s.pool.claimTag = 65535 then 1 else s.pool.claimTag + 1
    (e.module = none → (s.tle p).answerRoom →
        ∃ t, exec c s = .next t ∧ s.onlyTle t p ∧ t.tle p = (denied .badTier).wronged)
      ∧ (e.module.isSome = true → e.state = .cutting → (s.tle p).answerRoom →
        ∃ t, exec c s = .next t ∧ s.onlyTle t p ∧ t.tle p = denied .reducing)
      ∧ (e.module.isSome = true → e.state = .claiming → (s.tle p).answerRoom → ¬ busy →
        ∃ t, exec c s = .next t ∧ s.onlyTle t p ∧ t.tle p = denied .busy)
      ∧ (e.module.isSome = true → e.state = .claiming → (busy ∨ ¬ (s.tle p).answerRoom) →
        ∃ t, exec c s = .next t ∧ s.onlyTle t p ∧ t.tle p = tle.wronged)
      ∧ (e.module.isSome = true → e.state = .powered → badTier → (s.tle p).answerRoom →
        ∃ t, exec c s = .next t ∧ s.onlyTle t p ∧ t.tle p = (denied .badTier).wronged)
      ∧ (e.module.isSome = true → e.state = .powered → ¬ badTier → e.policy.ceiling < e.unitsOf tier.toNat →
          (s.tle p).answerRoom →
        ∃ t, exec c s = .next t ∧ s.onlyTle t p ∧ t.tle p = (denied .overOffer).wronged)
      ∧ (e.module.isSome = true → e.state = .powered → ¬ badTier → e.unitsOf tier.toNat ≤ e.policy.ceiling →
          (e.policy.autoGrant = false →
            ∃ t, exec c s = .next t ∧ t.entry p = { e with state := .claiming, claim := some claim } ∧ t.tle p = tle
              ∧ (∀ q : PortNo, q ≠ p → t.entry q = s.entry q ∧ t.tle q = s.tle q) ∧ t.senses = s.senses ∧ t.psi = s.psi
              ∧ t.pool = { s.pool with claimTag := nextTag }
              ∧ s.told t false p
                  [.claim claim.tag tier.toNat (e.unitsOf tier.toNat) mcid (e.policy.decisionWindow * 10)] [] s.qe.slots)
          ∧ (e.policy.autoGrant = true → s.busConsistent → s.pool.waitList = [] → s.pool.effective = s.pool.target →
              s.pool.arrival < 4294967295 → e.held ≤ e.unitsOf tier.toNat →
              s.pool.committed + (e.unitsOf tier.toNat - e.held) ≤ s.pool.target →
            ∃ t, exec c s = .next t
              ∧ t.entry p =
                { e with
                  state := .claiming, held := e.unitsOf tier.toNat
                  claim := some { claim with phase := .granting, granted := some tier.toNat, timer := none }
                  lease := e.lease.map fun l => { l with running := false } }
              ∧ t.tle p = tle ∧ t.writeAsked p { value := e.unitsOf tier.toNat, dir := .raise } ∧ s.busGoesOn t
              ∧ t.applied p = s.applied p ∧ (t.power p).pen = (s.power p).pen ∧ (t.power p).settle = (s.power p).settle
              ∧ t.sense p = s.sense p ∧ s.sameOthers t p
              ∧ t.pool =
                { s.pool with
                  claimTag := nextTag, committed := s.pool.committed + (e.unitsOf tier.toNat - e.held)
                  arrival := s.pool.arrival + 1 }
              ∧ s.quiet t)
          ∧ (e.policy.autoGrant = true → s.pool.waitList = [] → s.pool.effective = s.pool.target →
              s.pool.committed ≤ s.pool.target → s.pool.arrival < 4294967295 →
              s.pool.target < s.pool.committed + (e.unitsOf tier.toNat - e.held) →
            let need := e.unitsOf tier.toNat - e.held
            let u : State :=
              { s with
                entries := s.entries.set p
                  { e with
                    state := .claiming
                    claim := some
                      { claim with
                        phase := .awaitBudget, granted := some tier.toNat, timer := some (e.policy.waitLimit * 100000) } }
                tles := s.tles.set p tle
                pool :=
                  { s.pool with
                    claimTag := nextTag, arrival := s.pool.arrival + 1
                    waitList :=
                      [{ port := p, kind := .tier, need := need, priority := e.policy.priority
                         arrival := s.pool.arrival }] } }
            let incoming := (allPorts.map fun q =>
              if (s.entry q).state = .cutting then
                (s.entry q).held - ((s.entry q).cut.elim (s.entry q).held fun r => r.targetUnits)
              else 0).sum
            let shortfall : Int := (need : Int) - ((s.pool.target : Int) - s.pool.committed) - incoming
            let eligible (q : PortNo) : Prop :=
              (u.entry q).state = .powered ∧ (u.entry q).tier ≠ 0 ∧ (u.entry q).policy.preemptible = true
                ∧ e.policy.priority < (u.entry q).policy.priority ∧ (u.entry q).lowering = none
            (e.policy.waitLimit ≠ 0 → s.pool.preemption = false →
              ∃ t, exec c s = .next t ∧ t.entries = u.entries ∧ t.tles = u.tles ∧ t.senses = s.senses ∧ t.psi = s.psi
                ∧ t.pool = u.pool ∧ s.quiet t)
            ∧ (e.policy.waitLimit ≠ 0 → s.pool.preemption = true → (∀ q : PortNo, (s.tle q).waits .cut = false) →
              ∃ vs : List PortNo, u.victimsFor shortfall eligible vs
                ∧ ∃ t, exec c s = .next t ∧ u.cutsAll { t with qe := s.qe } vs .preempt ∧ s.quiet t)
            ∧ (e.policy.waitLimit = 0 → (s.tle p).answerRoom →
              ∃ t, exec c s = .next t ∧ t.entry p = { e with claim := none }
                ∧ t.tle p = denied .noBudget
                ∧ (∀ q : PortNo, q ≠ p → t.entry q = s.entry q ∧ t.tle q = s.tle q)
                ∧ t.senses = s.senses ∧ t.psi = s.psi
                ∧ t.pool = { s.pool with claimTag := nextTag, arrival := s.pool.arrival + 1 }
                ∧ s.told t false p [.claimDenied claim.tag .noBudget] [] s.qe.slots)))

/-- FRAME_RECEIVED of a RENEW (R107, R108, R173): the draw is recorded, at most 400; above 400 it is a protocol error;
above the applied level by more than the margin, or above 400, it is a strike, else the strikes go to 0; in POWERED
the lease restarts at its own length and elsewhere not. The third strike in a row begins a line clear and tears the
port down to CLEARING with notice LINE_CLEAR cause OVERDRAW. -/
def Obligations.RenewRestartsOrStrikes : Prop :=
  ∀ (p : PortNo) (seq : BitVec 4) (draw : Word16) (s : State), s.hears p seq .renew → (s.entry p).lowering = none →
    let e := s.entry p
    let strike := decide (400 < draw.toNat ∨ s.applied p + max 2 (s.applied p / 8) < draw.toNat)
    let d := (s.tle p).delivers seq .renew
    let tle : Tle :=
      { d with
        counters :=
          { d.counters with
            protocolErrors :=
              if 400 < draw.toNat then counted d.counters.protocolErrors else d.counters.protocolErrors
            strikesTotal := if strike then counted d.counters.strikesTotal else d.counters.strikesTotal } }
    (strike = false ∨ e.strikes < 2 →
      ∃ t, exec (.frameReceived p (frameBytes .renew seq (le16 draw.toNat))) s = .next t ∧ s.onlyPort t p ∧ s.quiet t
        ∧ t.tle p = tle
        ∧ t.entry p =
          { e with
            lastDraw := some (min draw.toNat 400), strikes := if strike then e.strikes + 1 else 0
            lease :=
              if e.state = .powered then e.lease.map fun l => { l with remaining := l.length * 1000000, running := true }
              else e.lease })
      ∧ (strike = true → e.strikes = 2 → s.poolQuiet p → s.busConsistent → s.offWithoutPen p → s.noSync →
        ∃ t, exec (.frameReceived p (frameBytes .renew seq (le16 draw.toNat))) s = .next t
          ∧ s.tornDownAlone t p e (tle.clearing none) .clearing
          ∧ t.sense p = { s.sense p with mode := .attached, detachReported := false }
          ∧ s.told t false p [.lineClear .overdraw] (s.boundCompletions p .cleared) (s.otherSlots p))

/-- FRAME_RECEIVED of a RELEASE or a DONE (R115, R116, R120, R121): a RELEASE below the tier in force lowers it at
once, with the lease record and, at tier 0, without it and without the grant order record, and asks for a lowering
write: in POWERED, in CUTTING above the target with the cut record kept, and in AWAIT_HOST after the claim is
withdrawn. A RELEASE in an AWAIT phase always withdraws the claim, with notice CLAIM_DENIED reason BUSY and, in
AWAIT_BUDGET, its entry; one not below the tier in force is then a protocol error. In CUTTING either frame at or below
the target stops the deadline and asks for the concluding lowering. A RELEASE in POWERED not below the tier in force, in
GRANTING, or in CUTTING not below the tier and above the target, and a DONE above the target or without a cut, is a
protocol error alone. -/
def Obligations.ReleaseAndDoneLower : Prop :=
  ∀ (p : PortNo) (seq : BitVec 4) (b : Byte) (isDone : Bool) (s : State),
    s.hears p seq (if isDone then .done else .release) → (s.entry p).lowering = none → s.busConsistent →
    let e := s.entry p
    let kind : FrameKind := if isDone then .done else .release
    let tier := b.toNat
    let c := Instr.frameReceived p (frameBytes kind seq [b])
    let tle := (s.tle p).delivers seq kind
    let lowered : Entry :=
      { e with
        tier := tier
        lease := if tier = 0 then none else e.lease.map fun l => { l with tier := tier, units := e.unitsOf tier } }
    let pool : Pool :=
      { s.pool with grantOrder := if tier = 0 then s.pool.grantOrder.set p none else s.pool.grantOrder }
    let granting := (e.claim.any fun x => decide (x.phase = .granting)) = true
    (isDone = false → e.state = .powered → tier < e.tier →
        ∃ t, exec c s = .next t ∧ t.entry p = { lowered with lowering := some .release } ∧ t.tle p = tle
          ∧ s.lowersTo t p (e.unitsOf tier) ∧ t.pool = pool ∧ s.quiet t)
      ∧ (isDone = false → e.state = .claiming → ∀ x : ClaimRec, e.claim = some x → x.phase = .awaitHost → tier < e.tier →
          (s.pool.waitList.all fun w => w.port != p) = true →
        ∃ t, exec c s = .next t
          ∧ t.entry p = { lowered with state := .powered, claim := none, lowering := some .release } ∧ t.tle p = tle
          ∧ s.lowersTo t p (e.unitsOf tier) ∧ t.pool = pool
          ∧ s.told t false p [.claimDenied x.tag .busy] [] s.qe.slots)
      ∧ (isDone = false → e.state = .claiming → ∀ x : ClaimRec, e.claim = some x → x.phase = .awaitBudget →
          s.poolQuiet p → tier < e.tier →
        ∃ t, exec c s = .next t
          ∧ t.entry p = { lowered with state := .powered, claim := none, lowering := some .release } ∧ t.tle p = tle
          ∧ s.lowersTo t p (e.unitsOf tier) ∧ t.pool = { pool with waitList := [] }
          ∧ s.told t false p [.claimDenied x.tag .busy] [] s.qe.slots)
      ∧ (isDone = false → e.state = .claiming → ∀ x : ClaimRec, e.claim = some x → x.phase ≠ .granting →
          s.poolQuiet p → e.tier ≤ tier →
        ∃ t, exec c s = .next t
          ∧ t.entry p = { e with state := .powered, claim := none } ∧ t.tle p = tle.wronged
          ∧ (∀ q : PortNo, q ≠ p → t.entry q = s.entry q ∧ t.tle q = s.tle q) ∧ t.senses = s.senses ∧ t.psi = s.psi
          ∧ t.pool = { s.pool with waitList := [] }
          ∧ s.told t false p [.claimDenied x.tag .busy] [] s.qe.slots)
      ∧ (e.state = .cutting → ∀ r : CutRec, e.cut = some r →
          (tier ≤ r.target →
            ∃ t, exec c s = .next t
              ∧ t.entry p =
                { e with cut := some { r with running := false }, lowering := some (.conclude tier false) }
              ∧ t.tle p = tle ∧ s.lowersTo t p (e.unitsOf tier) ∧ t.pool = s.pool ∧ s.quiet t)
          ∧ (isDone = false → r.target < tier → tier < e.tier →
            ∃ t, exec c s = .next t ∧ t.entry p = { lowered with lowering := some .partialRelease } ∧ t.tle p = tle
              ∧ s.lowersTo t p (e.unitsOf tier) ∧ t.pool = pool ∧ s.quiet t)
          ∧ (r.target < tier → (isDone = true ∨ e.tier ≤ tier) →
            ∃ t, exec c s = .next t ∧ s.onlyTle t p ∧ t.tle p = tle.wronged))
      ∧ (isDone = false → e.state = .powered → e.tier ≤ tier →
        ∃ t, exec c s = .next t ∧ s.onlyTle t p ∧ t.tle p = tle.wronged)
      ∧ (isDone = true → e.cut = none →
        ∃ t, exec c s = .next t ∧ s.onlyTle t p ∧ t.tle p = tle.wronged)
      ∧ (isDone = false → e.state = .claiming → granting →
        ∃ t, exec c s = .next t ∧ s.onlyTle t p ∧ t.tle p = tle.wronged)

/-- FRAME_RECEIVED of an ANNOUNCE (R87 to R92): one to six tiers, ascending above the floor and at most 400, make it
valid. On a port in POWERED at tier 0 a valid one replaces the module record, sets the consecutive faults to 0, queues
an OFFER with the tiers within the ceiling and gives ANNOUNCED, an invalid one removes the module record, is a
protocol error, and queues an OFFER of 0. Above tier 0 the port first drops: tier 0, no lease, a lowering write of the
floor asked for, the payload kept. In an AWAIT phase the claim is first withdrawn with CLAIM_DENIED reason BUSY and no
DENY (no pass in AWAIT_HOST: the model's choice, entry 39), and at tier 0 the announcement completes at once behind it. A cut is concluded and its REVOKEs complete OK, in the
event that takes the ANNOUNCE: the model's choice, entry 18. In GRANTING the payload is deferred. -/
def Obligations.AnnounceIsTaken : Prop :=
  ∀ (p : PortNo) (seq : BitVec 4) (payload : List Byte) (id : Word32) (tiers : List Nat) (s : State),
    s.hears p seq .announce → (s.entry p).lowering = none → (s.tle p).waits .offer = false →
    FrameKind.accepted .announce payload.length = true →
    let e := s.entry p
    let c := Instr.frameReceived p (frameBytes .announce seq payload)
    let tle := (s.tle p).delivers seq .announce
    let n := (byteAt payload 4).toNat
    let written := le32 id.toNat ++ [byteOf tiers.length] ++ tiers.flatMap le16
    let k := (tiers.filter fun u => u ≤ e.policy.ceiling).length
    let ascending := (e.floor :: tiers).Pairwise (· < ·) ∧ (tiers.all fun u => u ≤ 400) = true
    let drop : Entry :=
      { e with state := .powered, cut := none, tier := 0, lease := none, lowering := some (.drop payload) }
    let revokes := s.qe.slots.filter fun sl => sl.bound = some p && sl.kind = .revoke
    (e.state = .powered → e.tier = 0 → payload = written → ascending →
        ∃ t, exec c s = .next t ∧ s.onlyPort t p
          ∧ t.entry p = { e with module := some { id := id, tiers := tiers }, faults := 0 }
          ∧ t.tle p = tle.queues (.offer k e.policy.leaseLength)
          ∧ s.told t false p [.announced id k tiers] [] s.qe.slots)
      ∧ (e.state = .powered → e.tier = 0 → payload = written → (tiers.all fun u => u ≤ 65535) = true → ¬ ascending →
        ∃ t, exec c s = .next t ∧ s.onlyPort t p ∧ s.quiet t ∧ t.entry p = { e with module := none }
          ∧ t.tle p = tle.wronged.queues (.offer 0 e.policy.leaseLength))
      ∧ (e.state = .powered → e.tier = 0 → payload.length ≠ 5 + 2 * n →
        ∃ t, exec c s = .next t ∧ s.onlyPort t p ∧ s.quiet t ∧ t.entry p = { e with module := none }
          ∧ t.tle p = tle.wronged.queues (.offer 0 e.policy.leaseLength))
      ∧ (e.state = .powered → e.cut = none → e.tier ≠ 0 → s.busConsistent →
        ∃ t, exec c s = .next t ∧ t.entry p = drop ∧ t.tle p = tle ∧ s.lowersTo t p e.floor
          ∧ t.pool = { s.pool with grantOrder := s.pool.grantOrder.set p none } ∧ s.quiet t)
      ∧ (e.state = .cutting → e.tier ≠ 0 → e.waiting = [] → s.busConsistent → s.noSync → s.pool.waitList = [] →
          s.pool.effective = s.pool.target → s.pool.committed ≤ s.pool.target →
        ∃ t, exec c s = .next t ∧ t.entry p = drop ∧ t.tle p = tle ∧ s.lowersTo t p e.floor
          ∧ t.pool = { s.pool with grantOrder := s.pool.grantOrder.set p none }
          ∧ s.told t false p []
              (revokes.map fun sl => .completion sl.tag sl.code sl.port .ok (0 :: le16 e.floor))
              (s.qe.slots.filter fun sl => !(decide (sl.bound = some p) && decide (sl.kind = .revoke))))
      ∧ (∀ x : ClaimRec, e.state = .claiming → e.claim = some x → x.phase ≠ .granting → e.cut = none → e.tier ≠ 0 →
          s.poolQuiet p → s.busConsistent →
        ∃ t, exec c s = .next t ∧ t.entry p = { drop with claim := none } ∧ t.tle p = tle ∧ s.lowersTo t p e.floor
          ∧ t.pool = { s.pool with grantOrder := s.pool.grantOrder.set p none, waitList := [] }
          ∧ s.told t false p [.claimDenied x.tag .busy] [] s.qe.slots)
      ∧ (∀ x : ClaimRec, e.state = .claiming → e.claim = some x → x.phase ≠ .granting → e.tier = 0 → s.poolQuiet p →
          let free : Entry := { e with state := .powered, claim := none }
          let rest (t : State) : Prop :=
            (∀ q : PortNo, q ≠ p → t.entry q = s.entry q ∧ t.tle q = s.tle q)
              ∧ t.senses = s.senses ∧ t.psi = s.psi ∧ t.pool = { s.pool with waitList := [] }
          (payload = written → ascending →
            ∃ t, exec c s = .next t ∧ rest t
              ∧ t.entry p = { free with module := some { id := id, tiers := tiers }, faults := 0 }
              ∧ t.tle p = tle.queues (.offer k e.policy.leaseLength)
              ∧ s.told t false p [.claimDenied x.tag .busy, .announced id k tiers] [] s.qe.slots)
          ∧ ((payload = written ∧ (tiers.all fun u => u ≤ 65535) = true ∧ ¬ ascending ∨ payload.length ≠ 5 + 2 * n) →
            ∃ t, exec c s = .next t ∧ rest t ∧ t.entry p = { free with module := none }
              ∧ t.tle p = tle.wronged.queues (.offer 0 e.policy.leaseLength)
              ∧ s.told t false p [.claimDenied x.tag .busy] [] s.qe.slots))
      ∧ (e.state = .claiming → (e.claim.any fun x => decide (x.phase = .granting)) = true →
        ∃ t, exec c s = .next t ∧ s.onlyPort t p ∧ s.quiet t ∧ t.entry p = { e with deferredAnnounce := some payload }
          ∧ t.tle p = tle)

/-- FRAME_RECEIVED of a NOTE, and of any frame while LC lowers the port (R106, R89, R119): with a module record notice
NOTE carries the bytes, without one it is a protocol error; while LC lowers the port the frame is acknowledged and
waits at LC behind what waits there. -/
def Obligations.NotesAndWaitingFrames : Prop :=
  ∀ (p : PortNo) (seq : BitVec 4) (kind : FrameKind) (payload : List Byte) (s : State), s.hears p seq kind →
    payload.length ≤ 18 → kind.accepted payload.length = true → kind ≠ .ack →
    let e := s.entry p
    let c := Instr.frameReceived p (frameBytes kind seq payload)
    let tle := (s.tle p).delivers seq kind
    (e.lowering.isSome = true →
        ∃ t, exec c s = .next t ∧ s.onlyPort t p ∧ s.quiet t ∧ t.tle p = tle
          ∧ t.entry p = { e with waiting := e.waiting ++ [.frame kind payload] })
      ∧ (kind = .note → e.lowering = none → e.module = none →
        ∃ t, exec c s = .next t ∧ s.onlyTle t p ∧ t.tle p = tle.wronged)
      ∧ (kind = .note → e.lowering = none → e.module.isSome = true →
        ∃ t, exec c s = .next t ∧ s.onlyPort t p ∧ t.entry p = e
          ∧ t.tle p =
            { tle with counters := { tle.counters with notesDropped := (t.tle p).counters.notesDropped } }
          ∧ s.told t false p [.note payload] [] s.qe.slots)

/-! ### Line clears -/

/-- CLEAR_SENT, LINE_CLEAR_RECEIVED and TAP_LEVEL_CHANGE (R82 to R85, R152): at the release of a line clear the
command that asked for it completes OK if it is open, PORT_DISABLE with the state it met, and a low still held is
measured; a received line clear is counted and tears a POWERED, CLAIMING or CUTTING port down to CLEARING with notice
LINE_CLEAR cause RECEIVED, and in CLEARING restarts the rest and completes the commands bound to the port CLEARED,
with no pass (the model's choice, entry 37); a level change restarts the guard and a low that the part does not cause
starts the measurement while the detector is on. The model's choice (entry 4): LINE_CLEAR_RECEIVED with no low being
measured has no effect. The TAP pin (R62, R63): it is released while the engine sends nothing, pulled low until the end of a
line clear, and in a frame pulled low at the start of each 10 us cell, for 2 us in a one, 6 us in a zero and all of a start
cell, the cells filling the line time (the cell by the microseconds since the frame's begin, entry 44). The level of the line
is low below the input low threshold, high above the input high threshold, and between the two as last read; that these are
the 0.8 V and 2.0 V of the electrical summary is the model's reading (entry 47). -/
def Obligations.LineClearsAreSentAndReceived : Prop :=
  ∀ (p : PortNo) (s : State), s.ready →
    let tle := s.tle p
    let released : Tle :=
      { tle with line := none, guard := 0, lowLeft := if tle.tapLow && tle.detector then some 1500 else none }
    let received : Tle :=
      { tle with
        lowLeft := none, receiving := false
        counters := { tle.counters with clearsReceived := counted tle.counters.clearsReceived } }
    (∀ (order : Option Nat) (left : Nat), tle.line = some (.clear order left) →
        ((s.qe.slots.all fun sl => decide (order ≠ some sl.order)) = true →
          ∃ t, exec (.clearSent p) s = .next t ∧ s.onlyTle t p ∧ t.tle p = released)
        ∧ (s.noSync → ∀ sl ∈ s.qe.slots, order = some sl.order →
            sl.kind = .lineClear ∨ (match sl.kind with
              | .portDisable _ => true
              | _ => false) = true →
          ∃ t, exec (.clearSent p) s = .next t ∧ s.onlyPort t p ∧ t.entry p = s.entry p ∧ t.tle p = released
            ∧ s.told t false p []
                [.completion sl.tag sl.code sl.port .ok
                  (match sl.kind with
                   | .portDisable taken => [byteOf taken.code]
                   | _ => [])] (s.qe.slots.filter fun x => x.order != sl.order)))
      ∧ (tle.detector = true → tle.lowLeft.isSome = true → (s.entry p).state ∈ [.powered, .claiming, .cutting] →
          s.poolQuiet p → s.busConsistent → s.offWithoutPen p → s.noSync →
        ∃ t, exec (.lineClearReceived p) s = .next t
          ∧ s.tornDownAlone t p (s.entry p) received .clearing
          ∧ t.sense p = { s.sense p with mode := .attached, detachReported := false }
          ∧ s.told t false p [.lineClear .received] (s.boundCompletions p .cleared) (s.otherSlots p))
      ∧ (tle.detector = true → tle.lowLeft.isSome = true → (s.entry p).state = .clearing → s.noSync →
        ∃ t, exec (.lineClearReceived p) s = .next t ∧ s.onlyPort t p
          ∧ t.entry p = { s.entry p with clearRest := some 500000 } ∧ t.tle p = received
          ∧ s.told t false p [] (s.boundCompletions p .cleared) (s.otherSlots p))
      ∧ (tle.detector = false ∨ tle.lowLeft = none → exec (.lineClearReceived p) s = .next s)
      ∧ (∀ low : Bool, tle.tapLow ≠ low →
        ∃ t, exec (.tapLevelChange p low) s = .next t ∧ s.onlyTle t p
          ∧ t.tle p =
            { tle with
              tapLow := low, guard := 0
              lowLeft := if low && tle.detector && !tle.sendingClear then some 1500 else none })
      ∧ (tle.line = none →
          (tle.test.all fun x => decide (x.mode = .internal) ||
            (match x.phase with
            | .sending _ => false
            | _ => true)) = true →
          tle.pullsLow = false)
      ∧ (∀ (order : Option Nat) (left : Nat), tle.line = some (.clear order left) → tle.pullsLow = decide (0 < left))
      ∧ (∀ (x : TxItem) (seq : BitVec 4) (again : Bool) (left : Nat), tle.line = some (.frame x seq again left) →
          let cells := frameCells (x.frame.wire seq)
          let time := 240 + 80 * (4 + x.frame.payload.length)
          10 * cells.length = time
            ∧ ∀ (i us : Nat) (c : Cell), cells[i]? = some c → us < 10 → left = time - (10 * i + us) →
              tle.pullsLow = decide (us < (match c with
                | .one => 2
                | .zero => 6
                | .start => 10)))
      ∧ ∀ (wasLow : Bool) (millivolts : Int),
        (millivolts < 800 → readsLow wasLow millivolts = true) ∧ (2000 < millivolts → readsLow wasLow millivolts = false)
          ∧ (800 ≤ millivolts → millivolts ≤ 2000 → readsLow wasLow millivolts = wasLow)

/-! ### Preemption and shrink -/

/-- The preemption step (R33, R35, R126 to R129) is BP's at the end of an admission pass: a pass that admits and denies
nobody is this step and the shrink evaluation. With preemption enabled, no shrink, and a head that does not fit and may wait,
victims are chosen in victim order among the POWERED, leased, preemptible ports of a lower priority that LC is not lowering,
until what they free covers the shortfall, and a cut order goes to each; else nothing is ordered. The head and its entry stay
as they are. LC takes the orders when its rule of the event has run (the model's reading, entry 10) and cuts each port to
tier 0 with cause PREEMPT; an order that meets a port which has changed is not taken (R129). At the ACK of a GRANT (R104)
the pass of step 4 chooses with the port already POWERED at its new tier, before the deferred ceiling cut of step 6: where
that cut comes, the order to this port is not taken, and no other port is cut in its place. -/
def Obligations.PreemptionCutsInVictimOrder : Prop :=
  let incoming (s : State) : Nat := (allPorts.map fun p =>
      if (s.entry p).state = .cutting then (s.entry p).held - ((s.entry p).cut.elim (s.entry p).held fun c => c.targetUnits)
      else 0).sum
  let shortfall (s : State) (w : WaitEntry) : Int :=
    (w.need : Int) - ((s.pool.target : Int) - s.pool.committed) - incoming s
  let runs (s : State) (w : WaitEntry) : Prop :=
    s.pool.preemption = true ∧ s.pool.effective ≤ s.pool.target ∧ s.pool.target < s.pool.committed + w.need
      ∧ ¬ (w.kind = .tier ∧ ((s.entry w.port).claim.any fun c => c.phase = .awaitBudget && c.timer.isNone) = true)
  let eligible (s : State) (w : WaitEntry) (p : PortNo) : Prop :=
    (s.entry p).state = .powered ∧ (s.entry p).tier ≠ 0 ∧ (s.entry p).policy.preemptible = true
      ∧ w.priority < (s.entry p).policy.priority ∧ (s.entry p).lowering = none
  ∀ (s : State) (w : WaitEntry) (rest : List WaitEntry), s.pool.waitList = w :: rest → s.pool.orders = [] →
    (∀ p : PortNo, (s.tle p).waits .cut = false) →
    (¬ runs s w → s.preempt = s)
      ∧ (runs s w → ∃ vs : List PortNo, s.victimsFor (shortfall s w) (eligible s w) vs
          ∧ s.preempt = { s with pool := { s.pool with orders := vs.map .preempt } }
          ∧ s.cutsAll s.preempt.settlePool vs .preempt)
      ∧ (s.pool.target < s.pool.committed + w.need → s.nobodyImpatient → s.runPass = s.preempt.evaluate)
      ∧ (∀ p : PortNo, ¬ ((s.entry p).state = .powered ∧ (s.entry p).tier ≠ 0 ∧ (s.entry p).lowering = none) →
          s.takeOrder (.preempt p) = s)
      ∧ ∀ (p : PortNo) (seq : BitVec 4), s.collects p → ∀ a : Awaited, (s.tle p).awaiting = some a → a.seq = seq →
          a.item.frame.kind = .grant → ∀ c : ClaimRec, (s.entry p).claim = some c → c.phase = .granting →
          (s.entry p).state = .claiming → c.standsOn ≠ 0 → ∀ length : Nat, c.grantLength = some length →
          (s.entry p).deferredAnnounce = none → (s.entry p).lowering = none → s.nobodyImpatient →
          s.pool.arrival < 4294967295 → runs s w →
        let e := s.entry p
        let units := e.unitsOf c.standsOn
        let within := e.module.elim 0 fun m => (m.tiers.filter fun u => u ≤ e.policy.ceiling).length
        let started : Entry :=
          { e with
            state := .powered, tier := c.standsOn, claim := none, deferredCeiling := false
            lease := some
              { tier := c.standsOn, units := units, length := length, remaining := length * 1000000, running := true } }
        let acked : Tle :=
          { (s.tle p).heard with
            awaiting := none, window := none, retries := 0, retransmit := false, txSeq := (s.tle p).txSeq + 1 }
        let cuts := e.deferredCeiling = true ∧ e.policy.ceiling < units ∧ within < c.standsOn
        let u : State :=
          { s with
            entries := s.entries.set p started
            tles := s.tles.set p acked
            pool :=
              { s.pool with
                grantOrder := s.pool.grantOrder.set p (some s.pool.arrival), arrival := s.pool.arrival + 1 } }
        ∃ vs : List PortNo, u.victimsFor (shortfall u w) (eligible u w) vs
          ∧ ∃ t, exec (.frameReceived p (frameBytes .ack seq [])) s = .next t
            ∧ (¬ cuts → u.cutsAll { t with qe := s.qe } vs .preempt)
            ∧ (cuts →
                t.entry p =
                    { started with
                      state := .cutting
                      cut := some
                        { target := within, targetUnits := e.unitsOf within, deadline := e.policy.cutDeadline * 10000
                          running := true, cause := .ceiling, cmdTag := none } }
                  ∧ t.tle p = acked.queues (.cut within (max 1 (e.policy.cutDeadline * 10000 / 10000)))
                  ∧ u.cutsAll { t with qe := s.qe, entries := t.entries.set p started, tles := t.tles.set p acked }
                      (vs.filter fun q => decide (q ≠ p)) .preempt)
            ∧ s.told t false p [.leaseChanged c.standsOn units] [] s.qe.slots

/-- The shrink evaluation (R135 to R137, R17): with no shrink or no excess over what cuts in flight will bring it
orders nothing. Else victims are chosen in victim order among the leased ports in POWERED or an AWAIT phase that LC is
not lowering until they cover the excess, and a cut order goes to each. LC takes the orders when its rule of the event has
run (the model's reading, entry 10): each port in POWERED is cut to tier 0 with cause SHRINK; one in an AWAIT phase is first
denied NO_BUDGET with CLAIM_DENIED, and its TIER entry goes. Where there is no victim and nothing is in flight, the floor of
the first candidate alone is withdrawn: no power, STARVED with class and floor kept, its units released, a FLOOR entry for it,
notice STARVED, and WITHDRAWN for the commands bound to it; while committed still exceeds the target the pass of that
withdrawal orders the next candidate's. An order that meets a port which has changed is not taken. -/
def Obligations.ShrinkCutsThenWithdrawsAFloor : Prop :=
  ∀ s : State, (∀ p : PortNo, (s.tle p).waits .cut = false) → s.pool.orders = [] →
    let incoming := (allPorts.map fun p =>
      if (s.entry p).state = .cutting then (s.entry p).held - ((s.entry p).cut.elim (s.entry p).held fun c => c.targetUnits)
      else 0).sum
    let excess : Int := (s.pool.committed : Int) - incoming - s.pool.target
    let runs := s.pool.target < s.pool.effective ∧ 0 < excess
    let waits (p : PortNo) : Bool :=
      decide ((s.entry p).state = .claiming) && (s.entry p).claim.any fun c => decide (c.phase ≠ .granting)
    let grants (p : PortNo) : Prop :=
      (s.entry p).state = .claiming ∧ ((s.entry p).claim.any fun c => decide (c.phase = .granting)) = true
    let victim (p : PortNo) : Prop :=
      ((s.entry p).state = .powered ∨ waits p = true) ∧ (s.entry p).tier ≠ 0 ∧ (s.entry p).lowering = none
    let inFlight (p : PortNo) : Prop :=
      (s.entry p).state = .cutting ∨ grants p ∨ (s.entry p).lowering.isSome = true
    let candidate (p : PortNo) : Prop := ((s.entry p).state = .powered ∨ waits p = true) ∧ (s.entry p).tier = 0
    (¬ runs → s.evaluate = s)
      ∧ (runs → (∃ p : PortNo, victim p) → s.nobodyImpatient → (∀ p : PortNo, waits p = true → (s.tle p).answerRoom) →
          ∃ vs : List PortNo, s.victimsFor excess victim vs
            ∧ s.evaluate = { s with pool := { s.pool with orders := vs.map .shrink } }
            ∧ let t := s.evaluate.settlePool
              (∀ p ∈ vs,
                t.entry p =
                    { s.entry p with
                      state := .cutting, claim := if waits p then none else (s.entry p).claim
                      cut := some
                        { target := 0, targetUnits := (s.entry p).floor, deadline := (s.entry p).policy.cutDeadline * 10000
                          running := true, cause := .shrink, cmdTag := none } }
                  ∧ t.tle p =
                    (match if waits p then (s.entry p).claim else none with
                      | some c => (s.tle p).queues (.deny c.tierClaimed .noBudget c.moduleClaimId)
                      | none => s.tle p).queues (.cut 0 (max 1 ((s.entry p).policy.cutDeadline * 10000 / 10000))))
                ∧ (∀ p : PortNo, p ∉ vs → t.entry p = s.entry p ∧ t.tle p = s.tle p)
                ∧ t.senses = s.senses ∧ t.psi = s.psi ∧ s.sameRest t
                ∧ t.pool =
                  { s.pool with
                    waitList := s.pool.waitList.filter fun w => !(decide (w.port ∈ vs) && waits w.port) }
                ∧ (vs.filter waits = [] → t.qe = s.qe)
                ∧ ∀ (p : PortNo) (c : ClaimRec), vs.filter waits = [p] → (s.entry p).claim = some c →
                    s.told t s.qe.reserved p [.claimDenied c.tag .noBudget] [] s.qe.slots)
      ∧ (runs → (∀ p : PortNo, ¬ victim p) → ((∃ p : PortNo, inFlight p) ∨ ∀ p : PortNo, ¬ candidate p) →
          s.evaluate = s)
      ∧ (∀ p : PortNo, ¬ victim p → s.takeOrder (.shrink p) = s)
      ∧ (∀ p : PortNo,
          ¬ (((s.entry p).state = .powered ∨ (s.entry p).state = .claiming) ∧ (s.entry p).tier = 0
            ∧ (s.entry p).lowering = none) → s.takeOrder (.withdraw p) = s)
      ∧ (runs → (∀ p : PortNo, ¬ victim p) → (∀ p : PortNo, ¬ inFlight p) → ∀ p : PortNo, candidate p →
          (∀ q : PortNo, candidate q → q ≠ p → s.comesFirst p q) →
          s.pool.waitList = [] → s.noSync → s.slotsSound → s.busConsistent → s.offWithoutPen p →
          s.pool.arrival < 4294967295 →
          s.pool.target < s.pool.committed - (s.entry p).held + (s.entry p).floor →
          s.evaluate = { s with pool := { s.pool with orders := [.withdraw p] } }
            ∧ let t := s.takeOrder (.withdraw p)
              t.entry p =
                { s.entry p with
                  state := .starved, held := 0, tier := 0, strikes := 0, lastDraw := none, module := none, lease := none
                  claim := none, cut := none, clearRest := none, cooldown := none, lowering := none, waiting := []
                  deferredAnnounce := none, deferredCeiling := false }
              ∧ (t.power p).pen = false ∧ t.applied p = 0 ∧ (t.power p).settle = none
              ∧ ((s.power p).pen = true → t.writeAsked p { value := 0, dir := .teardown }) ∧ s.busGoesOn t
              ∧ (t.tle p).queue = [] ∧ (t.tle p).receiver = false ∧ (t.tle p).counters = (s.tle p).counters
              ∧ t.sense p = s.sense p ∧ s.sameOthers t p
              ∧ t.pool.committed = s.pool.committed - (s.entry p).held ∧ t.pool.target = s.pool.target
              ∧ t.pool.waitList =
                [{ port := p, kind := .floor, need := (s.entry p).floor, priority := (s.entry p).policy.priority
                   arrival := s.pool.arrival }]
              ∧ s.told t s.qe.reserved p [.starved (s.entry p).cls (s.entry p).floor] (s.boundCompletions p .withdrawn)
                  (s.otherSlots p)
              ∧ (s.pool.committed - (s.entry p).held ≤ s.pool.target → s.evaluate.settlePool = t)
              ∧ (s.pool.target < s.pool.committed - (s.entry p).held → ∀ q : PortNo, q ≠ p → candidate q →
                  (∀ r : PortNo, candidate r → r ≠ p → r ≠ q → s.comesFirst q r) → t.pool.orders = [.withdraw q]))

/-! ### Timers of the lease, claim and cut records -/

/-- LEASE_EXPIRY (R109, R110, R113): the time stands at 0; while LC lowers the port the expiry waits there; in POWERED
a cut to tier 0 with cause EXPIRY is created and a CUT queued; in an AWAIT phase the claim is denied REDUCING before
it; in CUTTING the record narrows to tier 0 or, there already, stands; LEASE_LAPSED is given with the lease's tier and
units. DECISION_WINDOW_EXPIRY, WAIT_LIMIT_EXPIRY and CUT_DEADLINE (R97, R37, R96, R117): the claim is denied NO_DECISION
or NO_BUDGET, its entry leaves the wait list, and the port is POWERED with tier and lease as they stood; the deadline
is the concluding event at the target, with notice CUT_FORCED and the lowering write asked for, and while LC lowers
the port it waits there. The model's choice (entry 4): without a lease, a claim or a cut the row has no effect. -/
def Obligations.RecordTimersRunOut : Prop :=
  ∀ (p : PortNo) (s : State), s.ready →
    (((s.entry p).lease = none → exec (.leaseExpiry p) s = .next s)
        ∧ ∀ l : LeaseRec, (s.entry p).lease = some l → l.running = true → 0 < (s.entry p).tier →
      let e : Entry := { s.entry p with lease := some { l with remaining := 0, running := false } }
      let record : CutRec :=
        { target := 0, targetUnits := e.floor, deadline := e.policy.cutDeadline * 10000, running := true, cause := .expiry
          cmdTag := none }
      let cut := TxFrame.cut 0 (max 1 (e.policy.cutDeadline * 10000 / 10000))
      (e.lowering.isSome = true →
          ∃ t, exec (.leaseExpiry p) s = .next t ∧ s.onlyPort t p ∧ s.quiet t ∧ t.tle p = s.tle p
            ∧ t.entry p = { e with waiting := e.waiting ++ [.leaseExpiry] })
        ∧ (e.lowering = none → e.state = .powered → e.claim = none → (s.tle p).waits .cut = false →
          ∃ t, exec (.leaseExpiry p) s = .next t ∧ s.onlyPort t p ∧ t.tle p = (s.tle p).queues cut
            ∧ t.entry p = { e with state := .cutting, cut := some record }
            ∧ s.told t false p [.leaseLapsed l.tier l.units] [] s.qe.slots)
        ∧ (e.lowering = none → e.state = .claiming → (s.tle p).waits .cut = false → (s.tle p).answerRoom →
            s.poolQuiet p → ∀ c : ClaimRec, e.claim = some c → c.phase ≠ .granting →
          ∃ t, exec (.leaseExpiry p) s = .next t
            ∧ t.tle p = ((s.tle p).queues (.deny c.tierClaimed .reducing c.moduleClaimId)).queues cut
            ∧ t.entry p = { e with state := .cutting, claim := none, cut := some record }
            ∧ (∀ q : PortNo, q ≠ p → t.entry q = s.entry q ∧ t.tle q = s.tle q) ∧ t.senses = s.senses ∧ t.psi = s.psi
            ∧ t.pool = { s.pool with waitList := [] }
            ∧ s.told t false p [.claimDenied c.tag .reducing, .leaseLapsed l.tier l.units] [] s.qe.slots)
        ∧ (e.lowering = none → e.state = .cutting → e.claim = none → (s.tle p).waits .cut = false →
            ∀ r : CutRec, e.cut = some r →
          ∃ t, exec (.leaseExpiry p) s = .next t ∧ s.onlyPort t p
            ∧ s.told t false p [.leaseLapsed l.tier l.units] [] s.qe.slots
            ∧ (r.target = 0 → t.entry p = e ∧ t.tle p = s.tle p)
            ∧ (0 < r.target →
                t.entry p =
                    { e with
                      cut := some
                        { r with
                          target := 0, targetUnits := e.floor, deadline := min r.deadline record.deadline
                          cause := .expiry } }
                  ∧ t.tle p = (s.tle p).queues (.cut 0 (max 1 (min r.deadline record.deadline / 10000))))))
      ∧
    let e := s.entry p
    (e.claim = none → exec (.decisionWindowExpiry p) s = .next s ∧ exec (.waitLimitExpiry p) s = .next s)
      ∧ (e.cut = none → exec (.cutDeadline p) s = .next s)
      ∧ (∀ c : ClaimRec, e.claim = some c → c.timer.isSome = true → (s.tle p).answerRoom →
        (c.phase = .awaitHost → (s.pool.waitList.all fun w => w.port != p) = true →
          ∃ t, exec (.decisionWindowExpiry p) s = .next t ∧ s.onlyPort t p
            ∧ t.entry p = { e with claim := none, state := .powered }
            ∧ t.tle p = (s.tle p).queues (.deny c.tierClaimed .noDecision c.moduleClaimId)
            ∧ s.told t false p [.claimDenied c.tag .noDecision] [] s.qe.slots)
        ∧ (c.phase = .awaitBudget → s.poolQuiet p →
          ∃ t, exec (.waitLimitExpiry p) s = .next t
            ∧ t.entry p = { e with claim := none, state := .powered }
            ∧ t.tle p = (s.tle p).queues (.deny c.tierClaimed .noBudget c.moduleClaimId)
            ∧ (∀ q : PortNo, q ≠ p → t.entry q = s.entry q ∧ t.tle q = s.tle q) ∧ t.senses = s.senses ∧ t.psi = s.psi
            ∧ t.pool = { s.pool with waitList := [] }
            ∧ s.told t false p [.claimDenied c.tag .noBudget] [] s.qe.slots))
      ∧ ∀ r : CutRec, e.cut = some r → r.running = true →
        let out : Entry := { e with cut := some { r with deadline := 0, running := false } }
        (e.lowering.isSome = true →
          ∃ t, exec (.cutDeadline p) s = .next t ∧ s.onlyPort t p ∧ s.quiet t ∧ t.tle p = s.tle p
            ∧ t.entry p = { out with waiting := e.waiting ++ [.cutDeadline] })
        ∧ (e.lowering = none → s.busConsistent →
          ∃ t, exec (.cutDeadline p) s = .next t
            ∧ t.entry p = { out with lowering := some (.conclude r.target true) } ∧ t.tle p = s.tle p
            ∧ s.lowersTo t p (e.unitsOf r.target) ∧ t.pool = s.pool
            ∧ s.told t false p [.cutForced e.tier r.target r.cause] [] s.qe.slots)

/-! ### Link tests -/

/-- LINK_TEST_RECEPTION and LINK_TEST_TIMEOUT (R176, R177): the test ends with the receiver off, and an open LINK_TEST
completes with mode, outcome, echo time, byte count and bytes: OK for a NOTE with the pattern, else LINK_FAULT:
pattern mismatch for another frame, of an unknown kind code too, or a length byte above 18, CRC error for a failing one, no frame at the timeout. A
test whose command is over completes nothing. No counter changes, and the idle guard goes on. The model's choices: with
no test the rows have no effect (entry 4); an INTERNAL reception is taken at any phase of the test, with an echo time of 0 before the test frame's end (entry 27); the byte
count is 0 at the timeout and at an over-long length byte, and at a CRC error that of the whole payload bytes received
(entry 28). -/
def Obligations.LinkTestEnds : Prop :=
  ∀ (p : PortNo) (kind : FrameKind) (seq : BitVec 4) (payload bytes : List Byte) (s : State), s.ready → s.noSync →
    ((s.tle p).test = none →
        exec (.linkTestTimeout p) s = .next s ∧ exec (.linkTestReception p bytes) s = .next s)
      ∧ ∀ x : LinkTest, (s.tle p).test = some x →
    let mode : Byte := match x.mode with
      | .internal => 0
      | .external => 1
    let elapsed : Nat := match x.phase with
      | .sent us => us
      | _ => 0
    let same : Bool := decide (kind = .note) && decide (payload = x.pattern)
    let came := bytes.length - 2
    let length := (byteAt bytes 1).toNat
    (∃ t, exec (.linkTestTimeout p) s = .next t ∧ s.testOver t p x.order .linkFault ([mode, 1] ++ le16 0 ++ [0]))
      ∧ (x.mode = .external → (s.tle p).receiving = false → exec (.linkTestReception p bytes) s = .next s)
      ∧ (x.mode = .internal ∨ (s.tle p).receiving = true →
          (payload.length ≤ 18 →
            ∃ t, exec (.linkTestReception p (frameBytes kind seq payload)) s = .next t
              ∧ s.testOver t p x.order (if same then .ok else .linkFault)
                  ([mode, if same then 0 else 3] ++ le16 elapsed ++ [byteOf payload.length] ++ payload.take 16))
          ∧ (∀ code : BitVec 4, payload.length ≤ 18 → code.toNat ∈ unknownKinds →
            ∃ t, exec (.linkTestReception p (codedFrame code seq payload)) s = .next t
              ∧ s.testOver t p x.order .linkFault
                  ([mode, 3] ++ le16 elapsed ++ [byteOf payload.length] ++ payload.take 16))
          ∧ (2 ≤ bytes.length → 19 ≤ length →
            ∃ t, exec (.linkTestReception p bytes) s = .next t
              ∧ s.testOver t p x.order .linkFault ([mode, 3] ++ le16 elapsed ++ [0]))
          ∧ ((match readReception bytes with
              | .broken _ => true
              | .badCrc _ => true
              | _ => false) = true →
            ∃ t, exec (.linkTestReception p bytes) s = .next t
              ∧ s.testOver t p x.order .linkFault
                  ([mode, 2] ++ le16 elapsed ++ [byteOf (min length came)]
                    ++ ((bytes.drop 2).take length).take 16)))

/-! ### Encoding -/

/-- Encode and read back (R64, R66 to R68): the bytes of every frame of every kind, sequence and payload of at most 18
bytes are read as a whole reception with that kind's code, sequence and payload, and as a good frame of the kind where
R64 gives it the length; and no two such frames have the same bytes. On the line (R63, R66): a receiver that has heard no
low of 40 us before takes the start of the frame's low periods and collects its bytes; a low of 40 us behind fewer than 8
one-cells is noise. -/
def Obligations.FrameBytesReadBack : Prop :=
  ∀ (kind : FrameKind) (seq : BitVec 4) (payload : List Byte), payload.length ≤ 18 →
    readReception (frameBytes kind seq payload) = .whole kind.code seq payload
      ∧ goodKind kind.code payload.length = (if kind.accepted payload.length then some kind else none)
      ∧ (frameBytes kind seq payload).length = 4 + payload.length
      ∧ (∀ noise : List Nat, 40 ∉ noise →
          heardBytes (noise ++ frameLows (frameBytes kind seq payload)) = some (frameBytes kind seq payload))
      ∧ (∀ (ones : Fin 8) (rest : List Nat), heardBytes (List.replicate ones.val 2 ++ 40 :: rest) = heardBytes rest)
      ∧ (kind.accepted payload.length = true →
          ∀ (kind' : FrameKind) (seq' : BitVec 4) (payload' : List Byte), payload'.length ≤ 18 →
            frameBytes kind seq payload = frameBytes kind' seq' payload' → kind = kind' ∧ seq = seq' ∧ payload = payload')

/-! ### Invariants -/

/-- Just after reset every invariant below holds. -/
def Obligations.ResetMeetsTheInvariants : Prop :=
  State.reset.accountsBalance ∧ State.reset.floorsMatch ∧ State.reset.countersBounded ∧ State.reset.busConsistent
    ∧ State.reset.atRest ∧ State.reset.tableConsistent ∧ State.reset.leasesMatch ∧ State.reset.supplyBacked
    ∧ State.reset.waitListSorted ∧ State.reset.headBlocked ∧ State.reset.qe.accessesBegun

/-- Every step keeps the account (R21: committed is the sum of the held units, effective capacity the greater of
target and committed), the floors (R3), the counters within 16 bits (R168, R172), and the service list (R45, R46). -/
def Obligations.AccountsStayBalanced : Prop :=
  ∀ s : State, s.accountsBalance → s.floorsMatch → s.countersBounded → s.busConsistent → ∀ t : State, step s = .next t →
    t.accountsBalance ∧ t.floorsMatch ∧ t.countersBounded ∧ t.busConsistent

/-- Every step ends at rest (R133, R140, R143, R155, R166): backlog and open commands within 24, open commands within
8 and in the order taken, no SYNC open that waits for nothing, at most one SET_BUDGET open and none without a shrink,
no order of BP untaken. And QE in RUNNING is left with no work unbegun: with a report and room in the report ring it is
writing, with an entry waiting and none held it is reading (R163, R165). -/
def Obligations.StepsEndAtRest : Prop :=
  ∀ s t : State, step s = .next t → (s.atRest → t.atRest) ∧ (s.qe.accessesBegun → t.qe.accessesBegun)

/-- Every step keeps the lease table consistent with the wait list, the Sense Units, the engines, the leases and the
grant order records (R6, R11 to R14, R22, R28, R41, R66, R119). -/
def Obligations.TableStaysConsistent : Prop :=
  ∀ s : State, s.tableConsistent → ∀ t : State, step s = .next t → t.tableConsistent ∧ (s.leasesMatch → t.leasesMatch)

/-- On a consistent table every step keeps each port's applied level within the units it holds (R5), with PEN on in
POWERED, CLAIMING and CUTTING and every limit write on its way backed by budget. -/
def Obligations.PowerStaysBacked : Prop :=
  ∀ s : State, s.tableConsistent → s.leasesMatch → s.supplyBacked → ∀ t : State, step s = .next t → t.supplyBacked

/-- Every step keeps the wait list in the order of R29, and on a consistent table leaves no head that fits target
capacity (R24, R33). -/
def Obligations.WaitListStaysServed : Prop :=
  ∀ s : State, s.waitListSorted → ∀ t : State, step s = .next t →
    t.waitListSorted ∧ (s.tableConsistent → s.headBlocked → t.headBlocked)
end

