-- ==== Sys2Proof/Laws/State.lean ====
section
/-! SUPPORT. The updates of one port's share of a block against every reader: one lemma for each pair, so that no later
proof unfolds a record update. -/

namespace Sys2Proof.Machine

open Sys2Proof

variable (s : State) (p q : PortNo)

/-! ### The whole fields of State after each update -/

@[simp] theorem State.modEntry_resetLow (f : Entry → Entry) : (s.modEntry p f).resetLow = s.resetLow := rfl
@[simp] theorem State.modEntry_senses (f : Entry → Entry) : (s.modEntry p f).senses = s.senses := rfl
@[simp] theorem State.modEntry_psi (f : Entry → Entry) : (s.modEntry p f).psi = s.psi := rfl
@[simp] theorem State.modEntry_tles (f : Entry → Entry) : (s.modEntry p f).tles = s.tles := rfl
@[simp] theorem State.modEntry_pool (f : Entry → Entry) : (s.modEntry p f).pool = s.pool := rfl
@[simp] theorem State.modEntry_qe (f : Entry → Entry) : (s.modEntry p f).qe = s.qe := rfl
@[simp] theorem State.modEntry_pending (f : Entry → Entry) : (s.modEntry p f).pending = s.pending := rfl

@[simp] theorem State.modSense_resetLow (f : SenseUnit → SenseUnit) : (s.modSense p f).resetLow = s.resetLow := rfl
@[simp] theorem State.modSense_entries (f : SenseUnit → SenseUnit) : (s.modSense p f).entries = s.entries := rfl
@[simp] theorem State.modSense_psi (f : SenseUnit → SenseUnit) : (s.modSense p f).psi = s.psi := rfl
@[simp] theorem State.modSense_tles (f : SenseUnit → SenseUnit) : (s.modSense p f).tles = s.tles := rfl
@[simp] theorem State.modSense_pool (f : SenseUnit → SenseUnit) : (s.modSense p f).pool = s.pool := rfl
@[simp] theorem State.modSense_qe (f : SenseUnit → SenseUnit) : (s.modSense p f).qe = s.qe := rfl
@[simp] theorem State.modSense_pending (f : SenseUnit → SenseUnit) : (s.modSense p f).pending = s.pending := rfl

@[simp] theorem State.modPower_resetLow (f : PsiPort → PsiPort) : (s.modPower p f).resetLow = s.resetLow := rfl
@[simp] theorem State.modPower_entries (f : PsiPort → PsiPort) : (s.modPower p f).entries = s.entries := rfl
@[simp] theorem State.modPower_senses (f : PsiPort → PsiPort) : (s.modPower p f).senses = s.senses := rfl
@[simp] theorem State.modPower_tles (f : PsiPort → PsiPort) : (s.modPower p f).tles = s.tles := rfl
@[simp] theorem State.modPower_pool (f : PsiPort → PsiPort) : (s.modPower p f).pool = s.pool := rfl
@[simp] theorem State.modPower_qe (f : PsiPort → PsiPort) : (s.modPower p f).qe = s.qe := rfl
@[simp] theorem State.modPower_pending (f : PsiPort → PsiPort) : (s.modPower p f).pending = s.pending := rfl

@[simp] theorem State.modTle_resetLow (f : Tle → Tle) : (s.modTle p f).resetLow = s.resetLow := rfl
@[simp] theorem State.modTle_entries (f : Tle → Tle) : (s.modTle p f).entries = s.entries := rfl
@[simp] theorem State.modTle_senses (f : Tle → Tle) : (s.modTle p f).senses = s.senses := rfl
@[simp] theorem State.modTle_psi (f : Tle → Tle) : (s.modTle p f).psi = s.psi := rfl
@[simp] theorem State.modTle_pool (f : Tle → Tle) : (s.modTle p f).pool = s.pool := rfl
@[simp] theorem State.modTle_qe (f : Tle → Tle) : (s.modTle p f).qe = s.qe := rfl
@[simp] theorem State.modTle_pending (f : Tle → Tle) : (s.modTle p f).pending = s.pending := rfl

@[simp] theorem State.modPsi_resetLow (f : Psi → Psi) : (s.modPsi f).resetLow = s.resetLow := rfl
@[simp] theorem State.modPsi_entries (f : Psi → Psi) : (s.modPsi f).entries = s.entries := rfl
@[simp] theorem State.modPsi_senses (f : Psi → Psi) : (s.modPsi f).senses = s.senses := rfl
@[simp] theorem State.modPsi_tles (f : Psi → Psi) : (s.modPsi f).tles = s.tles := rfl
@[simp] theorem State.modPsi_pool (f : Psi → Psi) : (s.modPsi f).pool = s.pool := rfl
@[simp] theorem State.modPsi_qe (f : Psi → Psi) : (s.modPsi f).qe = s.qe := rfl
@[simp] theorem State.modPsi_pending (f : Psi → Psi) : (s.modPsi f).pending = s.pending := rfl

@[simp] theorem State.modPool_resetLow (f : Pool → Pool) : (s.modPool f).resetLow = s.resetLow := rfl
@[simp] theorem State.modPool_entries (f : Pool → Pool) : (s.modPool f).entries = s.entries := rfl
@[simp] theorem State.modPool_senses (f : Pool → Pool) : (s.modPool f).senses = s.senses := rfl
@[simp] theorem State.modPool_psi (f : Pool → Pool) : (s.modPool f).psi = s.psi := rfl
@[simp] theorem State.modPool_tles (f : Pool → Pool) : (s.modPool f).tles = s.tles := rfl
@[simp] theorem State.modPool_qe (f : Pool → Pool) : (s.modPool f).qe = s.qe := rfl
@[simp] theorem State.modPool_pending (f : Pool → Pool) : (s.modPool f).pending = s.pending := rfl

@[simp] theorem State.modQe_resetLow (f : Qe → Qe) : (s.modQe f).resetLow = s.resetLow := rfl
@[simp] theorem State.modQe_entries (f : Qe → Qe) : (s.modQe f).entries = s.entries := rfl
@[simp] theorem State.modQe_senses (f : Qe → Qe) : (s.modQe f).senses = s.senses := rfl
@[simp] theorem State.modQe_psi (f : Qe → Qe) : (s.modQe f).psi = s.psi := rfl
@[simp] theorem State.modQe_tles (f : Qe → Qe) : (s.modQe f).tles = s.tles := rfl
@[simp] theorem State.modQe_pool (f : Qe → Qe) : (s.modQe f).pool = s.pool := rfl
@[simp] theorem State.modQe_pending (f : Qe → Qe) : (s.modQe f).pending = s.pending := rfl

@[simp] theorem State.modPsi_psi (f : Psi → Psi) : (s.modPsi f).psi = f s.psi := rfl
@[simp] theorem State.modPool_pool (f : Pool → Pool) : (s.modPool f).pool = f s.pool := rfl
@[simp] theorem State.modQe_qe (f : Qe → Qe) : (s.modQe f).qe = f s.qe := rfl
@[simp] theorem State.modPower_service (f : PsiPort → PsiPort) : (s.modPower p f).psi.service = s.psi.service := rfl
@[simp] theorem State.modPower_transfer (f : PsiPort → PsiPort) : (s.modPower p f).psi.transfer = s.psi.transfer := rfl

/-! ### One port's share after an update of that block -/

@[simp] theorem State.modEntry_entry_self (f : Entry → Entry) : (s.modEntry p f).entry p = f (s.entry p) := by
  simp [State.modEntry, State.entry]

theorem State.modEntry_entry_of_ne (f : Entry → Entry) (h : q ≠ p) : (s.modEntry p f).entry q = s.entry q := by
  have h' : (p : Nat) ≠ q := fun e => h (Fin.ext e.symm)
  simp [State.modEntry, State.entry, Vector.getElem_set_ne, h']

theorem State.modEntry_entry (f : Entry → Entry) : (s.modEntry p f).entry q = if q = p then f (s.entry p) else s.entry q := by
  by_cases h : q = p
  · subst h; simp
  · simp [h, State.modEntry_entry_of_ne]

@[simp] theorem State.modSense_sense_self (f : SenseUnit → SenseUnit) : (s.modSense p f).sense p = f (s.sense p) := by
  simp [State.modSense, State.sense]

theorem State.modSense_sense_of_ne (f : SenseUnit → SenseUnit) (h : q ≠ p) : (s.modSense p f).sense q = s.sense q := by
  have h' : (p : Nat) ≠ q := fun e => h (Fin.ext e.symm)
  simp [State.modSense, State.sense, Vector.getElem_set_ne, h']

theorem State.modSense_sense (f : SenseUnit → SenseUnit) : (s.modSense p f).sense q = if q = p then f (s.sense p) else s.sense q := by
  by_cases h : q = p
  · subst h; simp
  · simp [h, State.modSense_sense_of_ne]

@[simp] theorem State.modPower_power_self (f : PsiPort → PsiPort) : (s.modPower p f).power p = f (s.power p) := by
  simp [State.modPower, State.power]

theorem State.modPower_power_of_ne (f : PsiPort → PsiPort) (h : q ≠ p) : (s.modPower p f).power q = s.power q := by
  have h' : (p : Nat) ≠ q := fun e => h (Fin.ext e.symm)
  simp [State.modPower, State.power, Vector.getElem_set_ne, h']

theorem State.modPower_power (f : PsiPort → PsiPort) : (s.modPower p f).power q = if q = p then f (s.power p) else s.power q := by
  by_cases h : q = p
  · subst h; simp
  · simp [h, State.modPower_power_of_ne]

@[simp] theorem State.modTle_tle_self (f : Tle → Tle) : (s.modTle p f).tle p = f (s.tle p) := by
  simp [State.modTle, State.tle]

theorem State.modTle_tle_of_ne (f : Tle → Tle) (h : q ≠ p) : (s.modTle p f).tle q = s.tle q := by
  have h' : (p : Nat) ≠ q := fun e => h (Fin.ext e.symm)
  simp [State.modTle, State.tle, Vector.getElem_set_ne, h']

theorem State.modTle_tle (f : Tle → Tle) : (s.modTle p f).tle q = if q = p then f (s.tle p) else s.tle q := by
  by_cases h : q = p
  · subst h; simp
  · simp [h, State.modTle_tle_of_ne]

/-! ### One port's share after an update of another block -/

@[simp] theorem State.modEntry_sense (f : Entry → Entry) : (s.modEntry p f).sense q = s.sense q := rfl
@[simp] theorem State.modEntry_power (f : Entry → Entry) : (s.modEntry p f).power q = s.power q := rfl
@[simp] theorem State.modEntry_applied (f : Entry → Entry) : (s.modEntry p f).applied q = s.applied q := rfl
@[simp] theorem State.modEntry_tle (f : Entry → Entry) : (s.modEntry p f).tle q = s.tle q := rfl
@[simp] theorem State.modEntry_grantRecord (f : Entry → Entry) : (s.modEntry p f).grantRecord q = s.grantRecord q := rfl
@[simp] theorem State.modEntry_summary (f : Entry → Entry) : (s.modEntry p f).summary q = s.summary q := rfl

@[simp] theorem State.modSense_entry (f : SenseUnit → SenseUnit) : (s.modSense p f).entry q = s.entry q := rfl
@[simp] theorem State.modSense_power (f : SenseUnit → SenseUnit) : (s.modSense p f).power q = s.power q := rfl
@[simp] theorem State.modSense_applied (f : SenseUnit → SenseUnit) : (s.modSense p f).applied q = s.applied q := rfl
@[simp] theorem State.modSense_tle (f : SenseUnit → SenseUnit) : (s.modSense p f).tle q = s.tle q := rfl
@[simp] theorem State.modSense_grantRecord (f : SenseUnit → SenseUnit) : (s.modSense p f).grantRecord q = s.grantRecord q := rfl
@[simp] theorem State.modSense_summary (f : SenseUnit → SenseUnit) : (s.modSense p f).summary q = s.summary q := rfl

@[simp] theorem State.modPower_entry (f : PsiPort → PsiPort) : (s.modPower p f).entry q = s.entry q := rfl
@[simp] theorem State.modPower_sense (f : PsiPort → PsiPort) : (s.modPower p f).sense q = s.sense q := rfl
@[simp] theorem State.modPower_tle (f : PsiPort → PsiPort) : (s.modPower p f).tle q = s.tle q := rfl
@[simp] theorem State.modPower_grantRecord (f : PsiPort → PsiPort) : (s.modPower p f).grantRecord q = s.grantRecord q := rfl
@[simp] theorem State.modPower_summary (f : PsiPort → PsiPort) : (s.modPower p f).summary q = s.summary q := rfl

@[simp] theorem State.modTle_entry (f : Tle → Tle) : (s.modTle p f).entry q = s.entry q := rfl
@[simp] theorem State.modTle_sense (f : Tle → Tle) : (s.modTle p f).sense q = s.sense q := rfl
@[simp] theorem State.modTle_power (f : Tle → Tle) : (s.modTle p f).power q = s.power q := rfl
@[simp] theorem State.modTle_applied (f : Tle → Tle) : (s.modTle p f).applied q = s.applied q := rfl
@[simp] theorem State.modTle_grantRecord (f : Tle → Tle) : (s.modTle p f).grantRecord q = s.grantRecord q := rfl
@[simp] theorem State.modTle_summary (f : Tle → Tle) : (s.modTle p f).summary q = s.summary q := rfl

@[simp] theorem State.modPsi_entry (f : Psi → Psi) : (s.modPsi f).entry q = s.entry q := rfl
@[simp] theorem State.modPsi_sense (f : Psi → Psi) : (s.modPsi f).sense q = s.sense q := rfl
@[simp] theorem State.modPsi_tle (f : Psi → Psi) : (s.modPsi f).tle q = s.tle q := rfl
@[simp] theorem State.modPsi_grantRecord (f : Psi → Psi) : (s.modPsi f).grantRecord q = s.grantRecord q := rfl
@[simp] theorem State.modPsi_summary (f : Psi → Psi) : (s.modPsi f).summary q = s.summary q := rfl

@[simp] theorem State.modPool_entry (f : Pool → Pool) : (s.modPool f).entry q = s.entry q := rfl
@[simp] theorem State.modPool_sense (f : Pool → Pool) : (s.modPool f).sense q = s.sense q := rfl
@[simp] theorem State.modPool_power (f : Pool → Pool) : (s.modPool f).power q = s.power q := rfl
@[simp] theorem State.modPool_applied (f : Pool → Pool) : (s.modPool f).applied q = s.applied q := rfl
@[simp] theorem State.modPool_tle (f : Pool → Pool) : (s.modPool f).tle q = s.tle q := rfl
@[simp] theorem State.modPool_summary (f : Pool → Pool) : (s.modPool f).summary q = s.summary q := rfl

@[simp] theorem State.modQe_entry (f : Qe → Qe) : (s.modQe f).entry q = s.entry q := rfl
@[simp] theorem State.modQe_sense (f : Qe → Qe) : (s.modQe f).sense q = s.sense q := rfl
@[simp] theorem State.modQe_power (f : Qe → Qe) : (s.modQe f).power q = s.power q := rfl
@[simp] theorem State.modQe_applied (f : Qe → Qe) : (s.modQe f).applied q = s.applied q := rfl
@[simp] theorem State.modQe_tle (f : Qe → Qe) : (s.modQe f).tle q = s.tle q := rfl
@[simp] theorem State.modQe_grantRecord (f : Qe → Qe) : (s.modQe f).grantRecord q = s.grantRecord q := rfl

@[simp] theorem State.modPower_applied_self (f : PsiPort → PsiPort) : (s.modPower p f).applied p = (f (s.power p)).applied := by
  simp [State.applied]

end Sys2Proof.Machine
end

