-- ==== Sys2Proof/Laws/Ops.lean ====
section
/-! SUPPORT. What each shared operation leaves alone, said once for each operation and each part of State, and what the
plain cases of an operation are. -/

namespace Sys2Proof.Machine

open Sys2Proof

variable (s : State) (p q : PortNo)

/-- A fold of operations keeps what each keeps. -/
theorem foldl_keeps {α β : Type} (g : State → α) (f : State → β → State) (h : ∀ t x, g (f t x) = g t) (l : List β)
    (t : State) : g (l.foldl f t) = g t := by
  induction l generalizing t with
  | nil => rfl
  | cons x l ih => rw [List.foldl_cons, ih, h]

/-! ### Counters and reports (R166 to R168, R172) -/

@[simp] theorem State.count_keeps (f : Counters → Counters) :
    (s.count p f).resetLow = s.resetLow ∧ (s.count p f).entries = s.entries
      ∧ (s.count p f).senses = s.senses ∧ (s.count p f).psi = s.psi ∧ (s.count p f).pool = s.pool
      ∧ (s.count p f).qe = s.qe ∧ (s.count p f).pending = s.pending :=
  ⟨rfl, rfl, rfl, rfl, rfl, rfl, rfl⟩

@[simp] theorem State.protocolError_keeps :
    (s.protocolError p).resetLow = s.resetLow ∧ (s.protocolError p).entries = s.entries
      ∧ (s.protocolError p).senses = s.senses ∧ (s.protocolError p).psi = s.psi
      ∧ (s.protocolError p).pool = s.pool ∧ (s.protocolError p).qe = s.qe
      ∧ (s.protocolError p).pending = s.pending :=
  ⟨rfl, rfl, rfl, rfl, rfl, rfl, rfl⟩

/-- A counter that rises stays within 16 bits. -/
theorem bump_le (n : Nat) (h : n ≤ Config.counterMax) : bump n ≤ Config.counterMax := by
  unfold bump; split <;> omega

/-- A merge fills the port's summary, and for a NOTE the port's notes-dropped counter (R167). -/
theorem State.mergeNotice_cases (n : Notice) :
    let t := s.modQe fun q => { q with summaries := q.summaries.set p (q.summaries[p].merge n) }
    s.mergeNotice p n = t ∨ s.mergeNotice p n = t.count p fun c => { c with notesDropped := bump c.notesDropped } := by
  cases n <;> simp [State.mergeNotice]

/-- A notice is appended or merged (R167). -/
theorem State.notice_cases (n : Notice) :
    s.notice p n = (s.modQe fun q => q.append (.notice p n)) ∨ s.notice p n = s.mergeNotice p n := by
  unfold State.notice; split <;> simp

/-- A notice is appended where the port's summary is empty and there is room. -/
theorem State.notice_of_room (n : Notice) (h : (s.summary p).isEmpty = true)
    (hr : s.qe.load + bit s.qe.reserved < Config.backlogSize) :
    s.notice p n = s.modQe fun q => q.append (.notice p n) := by
  simp [State.notice, h, hr]

@[simp] theorem State.mergeNotice_keeps (n : Notice) :
    (s.mergeNotice p n).resetLow = s.resetLow ∧ (s.mergeNotice p n).entries = s.entries
      ∧ (s.mergeNotice p n).senses = s.senses ∧ (s.mergeNotice p n).psi = s.psi
      ∧ (s.mergeNotice p n).pool = s.pool ∧ (s.mergeNotice p n).pending = s.pending := by
  cases n <;> simp [State.mergeNotice]

@[simp] theorem State.notice_keeps (n : Notice) :
    (s.notice p n).resetLow = s.resetLow ∧ (s.notice p n).entries = s.entries
      ∧ (s.notice p n).senses = s.senses ∧ (s.notice p n).psi = s.psi ∧ (s.notice p n).pool = s.pool
      ∧ (s.notice p n).pending = s.pending := by
  rcases s.notice_cases p n with h | h <;> simp [h]

@[simp] theorem State.drainSummary_keeps :
    (s.drainSummary).resetLow = s.resetLow ∧ (s.drainSummary).entries = s.entries
      ∧ (s.drainSummary).senses = s.senses ∧ (s.drainSummary).psi = s.psi
      ∧ (s.drainSummary).tles = s.tles ∧ (s.drainSummary).pool = s.pool
      ∧ (s.drainSummary).pending = s.pending := by
  unfold State.drainSummary; split <;> (try split) <;> simp

/-! ### Completions and slots (R143, R144, R155) -/

/-- The end of a slot changes slots and backlog alone. -/
theorem Qe.closeSlot_window (b : Qe) (sl : Slot) (st : Status) (r : List Byte) :
    { b.closeSlot sl st r with backlog := b.backlog, slots := b.slots } = b := rfl

/-- The SYNCs that end change slots and backlog alone. -/
theorem Qe.closeSyncs_window (n : Nat) (b : Qe) : { b.closeSyncs n with backlog := b.backlog, slots := b.slots } = b := by
  induction n generalizing b with
  | zero => rfl
  | succ n ih =>
    unfold Qe.closeSyncs
    split
    · rename_i sl _
      have h := ih (b.closeSlot sl .ok [byteOf sl.syncCount])
      have h2 := congrArg (fun x : Qe => { x with backlog := b.backlog, slots := b.slots }) h
      exact h2.trans (Qe.closeSlot_window b sl _ _)
    · rfl

/-- A completion changes slots and backlog alone. -/
theorem Qe.complete_window (b : Qe) (o : Nat) (st : Status) (r : List Byte) :
    { b.complete o st r with backlog := b.backlog, slots := b.slots } = b := by
  unfold Qe.complete
  split
  · rename_i sl _
    have h := Qe.closeSyncs_window Config.slotCount (b.closeSlot sl st r)
    have h2 := congrArg (fun x : Qe => { x with backlog := b.backlog, slots := b.slots }) h
    exact h2.trans (Qe.closeSlot_window b sl _ _)
  · rfl

/-- Where no SYNC is empty, none ends. -/
theorem Qe.closeSyncs_of_none (n : Nat) (b : Qe) (h : b.slots.find? Slot.syncDone = none) : b.closeSyncs n = b := by
  cases n <;> simp [Qe.closeSyncs, h]

/-- A completion of a command that is not open does nothing (R144). -/
theorem Qe.complete_of_none (b : Qe) (o : Nat) (st : Status) (r : List Byte)
    (h : (b.slots.find? fun sl => sl.order == o) = none) : b.complete o st r = b := by
  simp [Qe.complete, h]

/-- A slot that is no SYNC is not relieved. -/
theorem Slot.relieve_of_noSync (sl : Slot) (o : Nat) (h : ∀ w c, sl.kind ≠ .sync w c) : sl.relieve o = sl := by
  unfold Slot.relieve; split
  · rename_i w c e; exact absurd e (h w c)
  · rfl

/-- Where no SYNC is open, a completion is one report at the back and one slot less (R144, R166). -/
theorem Qe.complete_of_noSync (b : Qe) (o : Nat) (st : Status) (r : List Byte) (sl : Slot)
    (hf : (b.slots.find? fun x => x.order == o) = some sl) (hs : ∀ x ∈ b.slots, ∀ w c, x.kind ≠ .sync w c) :
    b.complete o st r =
      { b with
        slots := b.slots.filter fun x => x.order != o
        backlog := b.backlog ++ [.completion sl.tag sl.code sl.port st r] } := by
  have ho : sl.order = o := by simpa using List.find?_some hf
  have hm : ((b.slots.filter fun x => x.order != o).map fun x => x.relieve o) = b.slots.filter fun x => x.order != o := by
    conv_rhs => rw [← List.map_id (b.slots.filter fun x => x.order != o)]
    refine List.map_congr_left fun x hx => ?_
    exact Slot.relieve_of_noSync x o (hs x (List.mem_filter.1 hx).1)
  have hc : b.closeSlot sl st r =
      { b with
        slots := b.slots.filter fun x => x.order != o
        backlog := b.backlog ++ [.completion sl.tag sl.code sl.port st r] } := by
    simp only [Qe.closeSlot, ho, hm]
  simp only [Qe.complete, hf, hc]
  refine Qe.closeSyncs_of_none _ _ (List.find?_eq_none.2 fun x hx => ?_)
  have hk := hs x (List.mem_filter.1 hx).1
  unfold Slot.syncDone
  split
  · rename_i w c e; exact absurd e (hk w c)
  · simp

@[simp] theorem State.complete_keeps (o : Nat) (st : Status) (r : List Byte) :
    (s.complete o st r).resetLow = s.resetLow ∧ (s.complete o st r).entries = s.entries
      ∧ (s.complete o st r).senses = s.senses ∧ (s.complete o st r).psi = s.psi
      ∧ (s.complete o st r).tles = s.tles ∧ (s.complete o st r).pool = s.pool
      ∧ (s.complete o st r).pending = s.pending :=
  ⟨rfl, rfl, rfl, rfl, rfl, rfl, rfl⟩

@[simp] theorem State.openSlot_keeps (tag : Word16) (code port : Byte) (b : Option PortNo) (k : OpenKind) :
    (s.openSlot tag code port b k).resetLow = s.resetLow
      ∧ (s.openSlot tag code port b k).entries = s.entries
      ∧ (s.openSlot tag code port b k).senses = s.senses ∧ (s.openSlot tag code port b k).psi = s.psi
      ∧ (s.openSlot tag code port b k).tles = s.tles ∧ (s.openSlot tag code port b k).pool = s.pool
      ∧ (s.openSlot tag code port b k).pending = s.pending :=
  ⟨rfl, rfl, rfl, rfl, rfl, rfl, rfl⟩

@[simp] theorem State.begin_keeps :
    (s.begin).resetLow = s.resetLow ∧ (s.begin).entries = s.entries ∧ (s.begin).senses = s.senses
      ∧ (s.begin).psi = s.psi ∧ (s.begin).tles = s.tles ∧ (s.begin).pool = s.pool
      ∧ (s.begin).pending = s.pending :=
  ⟨rfl, rfl, rfl, rfl, rfl, rfl, rfl⟩

@[simp] theorem State.answer_keeps (r : Report) :
    (s.answer r).resetLow = s.resetLow ∧ (s.answer r).entries = s.entries
      ∧ (s.answer r).senses = s.senses ∧ (s.answer r).psi = s.psi ∧ (s.answer r).tles = s.tles
      ∧ (s.answer r).pool = s.pool ∧ (s.answer r).pending = s.pending :=
  ⟨rfl, rfl, rfl, rfl, rfl, rfl, rfl⟩

/-- The accesses that begin change nothing but that they are in progress, and the address read (R163, R165). -/
theorem Qe.startAccesses_window (b : Qe) :
    { b.startAccesses with fetching := b.fetching, lastRead := b.lastRead, writing := b.writing } = b := by
  unfold Qe.startAccesses Qe.startRead; dsimp only; repeat' split
  all_goals rfl

/-- A read that begins is of the entry at CMD_HEAD (R163). -/
theorem Qe.startRead_of_idle (b : Qe) (h : b.fetching = false) :
    b.startRead = { b with fetching := true, lastRead := some (b.cmdBase + 32 * b.cmdHead) } := by
  simp [Qe.startRead, entryAddress, h]

/-- A read in progress goes on as it began (R163). -/
theorem Qe.startRead_of_busy (b : Qe) (h : b.fetching = true) : b.startRead = b := by simp [Qe.startRead, h]

/-! ### The limit bus (R46, R49) -/

@[simp] theorem State.startTransfer_keeps :
    (s.startTransfer).resetLow = s.resetLow ∧ (s.startTransfer).entries = s.entries
      ∧ (s.startTransfer).senses = s.senses ∧ (s.startTransfer).tles = s.tles
      ∧ (s.startTransfer).pool = s.pool ∧ (s.startTransfer).qe = s.qe
      ∧ (s.startTransfer).pending = s.pending := by
  unfold State.startTransfer; split <;> (try split) <;> simp

@[simp] theorem State.requestWrite_keeps (v : Nat) (d : WriteDir) :
    (s.requestWrite p v d).resetLow = s.resetLow ∧ (s.requestWrite p v d).entries = s.entries
      ∧ (s.requestWrite p v d).senses = s.senses ∧ (s.requestWrite p v d).tles = s.tles
      ∧ (s.requestWrite p v d).pool = s.pool ∧ (s.requestWrite p v d).qe = s.qe
      ∧ (s.requestWrite p v d).pending = s.pending := by
  unfold State.requestWrite; dsimp only; split <;> simp

@[simp] theorem State.teardownWrite_keeps :
    (s.teardownWrite p).resetLow = s.resetLow ∧ (s.teardownWrite p).entries = s.entries
      ∧ (s.teardownWrite p).senses = s.senses ∧ (s.teardownWrite p).tles = s.tles
      ∧ (s.teardownWrite p).pool = s.pool ∧ (s.teardownWrite p).qe = s.qe
      ∧ (s.teardownWrite p).pending = s.pending := by
  unfold State.teardownWrite; split <;> simp

/-! ### The transmit queue (R72, R82) -/

/-- A replacement in place keeps the number of frames that wait (R72). -/
@[simp] theorem replaceLast_length (is : TxFrame → Bool) (f : TxFrame) (l : List TxItem) :
    (replaceLast is f l).length = l.length := by
  induction l with
  | nil => rfl
  | cons x l ih => unfold replaceLast; split <;> simp [ih]

/-- Where one frame passes the test, it is the one replaced, wherever it stands (R72). -/
theorem replaceLast_of_single (is : TxFrame → Bool) (f : TxFrame) (a b : List TxItem) (x : TxItem)
    (ha : ∀ y ∈ a, is y.frame = false) (hx : is x.frame = true) (hb : ∀ y ∈ b, is y.frame = false) :
    replaceLast is f (a ++ x :: b) = a ++ f.item :: b := by
  induction a with
  | nil =>
    have : (b.any fun y => is y.frame) = false := List.any_eq_false.2 fun y hy => by simp [hb y hy]
    simp [replaceLast, hx, this]
  | cons y a ih =>
    have hy := ha y (by simp)
    have := ih fun z hz => ha z (by simp [hz])
    simp [replaceLast, hy, this]

@[simp] theorem State.queueFrame_keeps (f : TxFrame) :
    (s.queueFrame p f).resetLow = s.resetLow ∧ (s.queueFrame p f).entries = s.entries
      ∧ (s.queueFrame p f).senses = s.senses ∧ (s.queueFrame p f).psi = s.psi
      ∧ (s.queueFrame p f).pool = s.pool ∧ (s.queueFrame p f).qe = s.qe
      ∧ (s.queueFrame p f).pending = s.pending := by
  unfold State.queueFrame; dsimp only; split <;> (try split) <;> simp

@[simp] theorem State.queueOffer_keeps :
    (s.queueOffer p).resetLow = s.resetLow ∧ (s.queueOffer p).entries = s.entries
      ∧ (s.queueOffer p).senses = s.senses ∧ (s.queueOffer p).psi = s.psi
      ∧ (s.queueOffer p).pool = s.pool ∧ (s.queueOffer p).qe = s.qe
      ∧ (s.queueOffer p).pending = s.pending := by
  simp [State.queueOffer]

@[simp] theorem State.sendClear_keeps (o : Option Nat) :
    (s.sendClear p o).resetLow = s.resetLow ∧ (s.sendClear p o).entries = s.entries
      ∧ (s.sendClear p o).senses = s.senses ∧ (s.sendClear p o).psi = s.psi
      ∧ (s.sendClear p o).pool = s.pool ∧ (s.sendClear p o).qe = s.qe
      ∧ (s.sendClear p o).pending = s.pending :=
  ⟨rfl, rfl, rfl, rfl, rfl, rfl, rfl⟩

/-! ### The account and the pass (R21, R33, R36, R96) -/

@[simp] theorem State.raiseHeld_keeps (n : Nat) :
    (s.raiseHeld p n).resetLow = s.resetLow ∧ (s.raiseHeld p n).senses = s.senses
      ∧ (s.raiseHeld p n).psi = s.psi ∧ (s.raiseHeld p n).tles = s.tles ∧ (s.raiseHeld p n).qe = s.qe
      ∧ (s.raiseHeld p n).pending = s.pending :=
  ⟨rfl, rfl, rfl, rfl, rfl, rfl⟩

@[simp] theorem State.lowerHeld_keeps (n : Nat) :
    (s.lowerHeld p n).resetLow = s.resetLow ∧ (s.lowerHeld p n).senses = s.senses
      ∧ (s.lowerHeld p n).psi = s.psi ∧ (s.lowerHeld p n).tles = s.tles ∧ (s.lowerHeld p n).qe = s.qe
      ∧ (s.lowerHeld p n).pending = s.pending :=
  ⟨rfl, rfl, rfl, rfl, rfl, rfl⟩

@[simp] theorem State.admitHead_keeps (w : WaitEntry) :
    (s.admitHead w).resetLow = s.resetLow ∧ (s.admitHead w).senses = s.senses
      ∧ (s.admitHead w).tles = s.tles ∧ (s.admitHead w).qe = s.qe ∧ (s.admitHead w).pending = s.pending := by
  unfold State.admitHead; dsimp only; split <;> simp

@[simp] theorem State.walk_keeps (n : Nat) :
    (State.walk n s).resetLow = s.resetLow ∧ (State.walk n s).senses = s.senses
      ∧ (State.walk n s).tles = s.tles ∧ (State.walk n s).qe = s.qe
      ∧ (State.walk n s).pending = s.pending := by
  induction n generalizing s with
  | zero => simp [State.walk]
  | succ n ih => unfold State.walk; split <;> (try split) <;> simp [ih]

@[simp] theorem State.dropClaim_keeps (c : ClaimRec) (r : DenyReason) (d : Bool) :
    (s.dropClaim p c r d).resetLow = s.resetLow ∧ (s.dropClaim p c r d).senses = s.senses
      ∧ (s.dropClaim p c r d).psi = s.psi ∧ (s.dropClaim p c r d).pending = s.pending := by
  unfold State.dropClaim; dsimp only; split <;> simp

@[simp] theorem State.passes_keeps (n : Nat) :
    (State.passes n s).resetLow = s.resetLow ∧ (State.passes n s).senses = s.senses
      ∧ (State.passes n s).pending = s.pending := by
  induction n generalizing s with
  | zero => simp [State.passes]
  | succ n ih => unfold State.passes; dsimp only; split <;> simp [ih]

/-! ### What BP chooses at the end of a pass (R33, R126 to R128, R135 to R137) -/

@[simp] theorem State.sendOrders_keeps (os : List PoolOrder) :
    (s.sendOrders os).resetLow = s.resetLow ∧ (s.sendOrders os).entries = s.entries
      ∧ (s.sendOrders os).senses = s.senses ∧ (s.sendOrders os).psi = s.psi
      ∧ (s.sendOrders os).tles = s.tles ∧ (s.sendOrders os).qe = s.qe
      ∧ (s.sendOrders os).pending = s.pending :=
  ⟨rfl, rfl, rfl, rfl, rfl, rfl, rfl⟩

@[simp] theorem State.preempt_keeps :
    (s.preempt).resetLow = s.resetLow ∧ (s.preempt).entries = s.entries ∧ (s.preempt).senses = s.senses
      ∧ (s.preempt).psi = s.psi ∧ (s.preempt).tles = s.tles ∧ (s.preempt).qe = s.qe
      ∧ (s.preempt).pending = s.pending := by
  simp [State.preempt]

@[simp] theorem State.evaluate_keeps :
    (s.evaluate).resetLow = s.resetLow ∧ (s.evaluate).entries = s.entries
      ∧ (s.evaluate).senses = s.senses ∧ (s.evaluate).psi = s.psi ∧ (s.evaluate).tles = s.tles
      ∧ (s.evaluate).qe = s.qe ∧ (s.evaluate).pending = s.pending := by
  unfold State.evaluate; split <;> simp

@[simp] theorem State.runPass_keeps :
    (s.runPass).resetLow = s.resetLow ∧ (s.runPass).senses = s.senses ∧ (s.runPass).pending = s.pending := by
  simp [State.runPass]

/-- No orders change nothing. -/
@[simp] theorem State.sendOrders_nil : s.sendOrders [] = s := by
  cases s with | mk _ _ _ _ _ pool _ _ => cases pool; simp [State.sendOrders, State.modPool]

/-- Orders join those that LC has not taken yet. -/
@[simp] theorem State.sendOrders_pool (os : List PoolOrder) :
    (s.sendOrders os).pool = { s.pool with orders := s.pool.orders ++ os } := rfl

/-- Where the condition of R35 does not hold, the preemption step orders nothing. -/
theorem State.preempt_of_none (h : s.preemptHead = none) : s.preempt = s := by
  simp [State.preempt, State.preemptVictims, h]

/-- Where the condition of R35 holds, the preemption step changes nothing but the orders, one for each victim (R128). -/
theorem State.preempt_of_head (w : WaitEntry) (h : s.preemptHead = some w) :
    s.preempt = s.sendOrders ((s.take (s.shortfall w) (s.victims (s.preemptable w.priority))).map .preempt) := by
  simp [State.preempt, State.preemptVictims, h]

/-- Outside a shrink the evaluation orders nothing (R135). -/
theorem State.evaluate_of_no_shrink (h : s.pool.shrinking = false) : s.evaluate = s := by
  simp [State.evaluate, h]

/-- A pass over an empty wait list, with no shrink in progress, changes nothing. -/
theorem State.runPass_of_nil (h : s.pool.waitList = []) (hs : s.pool.shrinking = false) : s.runPass = s := by
  have hp : s.preempt = s := s.preempt_of_none (by simp [State.preemptHead, h])
  simp [State.runPass, State.passes, h, State.walk, State.firstImpatient, hp, s.evaluate_of_no_shrink hs]

/-! ### Cuts (R111 to R113, R115, R122, R125) -/

@[simp] theorem State.queueCut_keeps :
    (s.queueCut p).resetLow = s.resetLow ∧ (s.queueCut p).entries = s.entries
      ∧ (s.queueCut p).senses = s.senses ∧ (s.queueCut p).psi = s.psi ∧ (s.queueCut p).pool = s.pool
      ∧ (s.queueCut p).qe = s.qe ∧ (s.queueCut p).pending = s.pending := by
  unfold State.queueCut; split <;> simp

@[simp] theorem State.createCut_keeps (t : Nat) (c : CutCause) (o : Option Nat) (g : Option Word16) :
    (s.createCut p t c o g).resetLow = s.resetLow ∧ (s.createCut p t c o g).senses = s.senses
      ∧ (s.createCut p t c o g).psi = s.psi ∧ (s.createCut p t c o g).pool = s.pool
      ∧ (s.createCut p t c o g).qe = s.qe ∧ (s.createCut p t c o g).pending = s.pending := by
  simp [State.createCut]

@[simp] theorem State.narrowCut_keeps (t : Nat) (c : CutCause) (o : Option Nat) (g : Option Word16) :
    (s.narrowCut p t c o g).resetLow = s.resetLow ∧ (s.narrowCut p t c o g).senses = s.senses
      ∧ (s.narrowCut p t c o g).psi = s.psi ∧ (s.narrowCut p t c o g).pool = s.pool
      ∧ (s.narrowCut p t c o g).qe = s.qe ∧ (s.narrowCut p t c o g).pending = s.pending := by
  unfold State.narrowCut; split <;> (try split) <;> simp

@[simp] theorem State.orderCut_keeps (t : Nat) (c : CutCause) (o : Option Nat) (g : Option Word16) :
    (s.orderCut p t c o g).resetLow = s.resetLow ∧ (s.orderCut p t c o g).senses = s.senses
      ∧ (s.orderCut p t c o g).psi = s.psi ∧ (s.orderCut p t c o g).pool = s.pool
      ∧ (s.orderCut p t c o g).qe = s.qe ∧ (s.orderCut p t c o g).pending = s.pending := by
  unfold State.orderCut; dsimp only; split <;> (try split) <;> (try split) <;> simp

@[simp] theorem State.ceilingCut_keeps :
    (s.ceilingCut p).resetLow = s.resetLow ∧ (s.ceilingCut p).senses = s.senses
      ∧ (s.ceilingCut p).psi = s.psi ∧ (s.ceilingCut p).pool = s.pool ∧ (s.ceilingCut p).qe = s.qe
      ∧ (s.ceilingCut p).pending = s.pending := by
  unfold State.ceilingCut; dsimp only; split <;> simp

@[simp] theorem State.startLowering_keeps (n : Nat) (l : Lowering) :
    (s.startLowering p n l).resetLow = s.resetLow ∧ (s.startLowering p n l).senses = s.senses
      ∧ (s.startLowering p n l).tles = s.tles ∧ (s.startLowering p n l).pool = s.pool
      ∧ (s.startLowering p n l).qe = s.qe ∧ (s.startLowering p n l).pending = s.pending := by
  simp [State.startLowering]

@[simp] theorem State.concludeCut_keeps (n : Nat) (b : Bool) :
    (s.concludeCut p n b).resetLow = s.resetLow ∧ (s.concludeCut p n b).senses = s.senses
      ∧ (s.concludeCut p n b).tles = s.tles ∧ (s.concludeCut p n b).pool = s.pool
      ∧ (s.concludeCut p n b).qe = s.qe ∧ (s.concludeCut p n b).pending = s.pending := by
  simp [State.concludeCut]

@[simp] theorem State.setTier_keeps (n : Nat) :
    (s.setTier p n).resetLow = s.resetLow ∧ (s.setTier p n).senses = s.senses
      ∧ (s.setTier p n).psi = s.psi ∧ (s.setTier p n).tles = s.tles ∧ (s.setTier p n).qe = s.qe
      ∧ (s.setTier p n).pending = s.pending := by
  unfold State.setTier; split <;> simp

/-- A fold of completions changes nothing but QE. -/
theorem State.foldl_complete (ls : List Slot) (o : Slot → Nat) (st : Status) (r : Slot → List Byte) (t : State) :
    ∃ b : Qe, (ls.foldl (fun s sl => s.complete (o sl) st (r sl)) t) = { t with qe := b } := by
  induction ls generalizing t with
  | nil => exact ⟨t.qe, rfl⟩
  | cons x xs ih => obtain ⟨b, hb⟩ := ih (t.complete (o x) st (r x)); exact ⟨b, hb⟩

@[simp] theorem State.completeRevokes_keeps (t u : Nat) (st : Status) :
    (s.completeRevokes p t u st).resetLow = s.resetLow
      ∧ (s.completeRevokes p t u st).entries = s.entries
      ∧ (s.completeRevokes p t u st).senses = s.senses ∧ (s.completeRevokes p t u st).psi = s.psi
      ∧ (s.completeRevokes p t u st).tles = s.tles ∧ (s.completeRevokes p t u st).pool = s.pool
      ∧ (s.completeRevokes p t u st).pending = s.pending := by
  obtain ⟨b, h⟩ := State.foldl_complete (s.cutRevokes p) (fun sl => sl.order) st (fun _ => byteOf t :: le16 u) s
  unfold State.completeRevokes; simp [h]

@[simp] theorem State.completeBound_keeps (k : Option Nat) (st : Status) :
    (s.completeBound p k st).resetLow = s.resetLow ∧ (s.completeBound p k st).entries = s.entries
      ∧ (s.completeBound p k st).senses = s.senses ∧ (s.completeBound p k st).psi = s.psi
      ∧ (s.completeBound p k st).tles = s.tles ∧ (s.completeBound p k st).pool = s.pool
      ∧ (s.completeBound p k st).pending = s.pending := by
  obtain ⟨b, h⟩ := State.foldl_complete (s.qe.boundTo p k) (fun sl => sl.order) st (Slot.tearResult) s
  unfold State.completeBound; simp [h]

/-! ### Preemption and the end of a claim (R37, R96, R126 to R129) -/

@[simp] theorem State.takePreempt_keeps :
    (s.takePreempt p).resetLow = s.resetLow ∧ (s.takePreempt p).senses = s.senses
      ∧ (s.takePreempt p).pending = s.pending := by
  unfold State.takePreempt; dsimp only; split <;> simp

@[simp] theorem State.endClaim_keeps (r : DenyReason) (d : Bool) :
    (s.endClaim p r d).resetLow = s.resetLow ∧ (s.endClaim p r d).senses = s.senses
      ∧ (s.endClaim p r d).pending = s.pending := by
  unfold State.endClaim; split <;> (try dsimp only) <;> (try split) <;> simp

@[simp] theorem State.expireClaim_keeps :
    (s.expireClaim p).resetLow = s.resetLow ∧ (s.expireClaim p).senses = s.senses
      ∧ (s.expireClaim p).pending = s.pending := by
  unfold State.expireClaim; split <;> simp

/-- A claim that waits for the host ends without a pass (R96). -/
theorem State.endClaim_of_awaitHost (c : ClaimRec) (r : DenyReason) (d : Bool) (hc : (s.entry p).claim = some c)
    (h : c.phase = .awaitHost) : s.endClaim p r d = s.dropClaim p c r d := by
  simp [State.endClaim, hc, h]

@[simp] theorem State.requestTier_keeps (n : Nat) :
    (s.requestTier p n).resetLow = s.resetLow ∧ (s.requestTier p n).senses = s.senses
      ∧ (s.requestTier p n).pending = s.pending := by
  simp [State.requestTier]

/-! ### Presence and teardown (R15, R41, R42) -/

@[simp] theorem State.enterSensing_keeps :
    (s.enterSensing p).resetLow = s.resetLow ∧ (s.enterSensing p).psi = s.psi
      ∧ (s.enterSensing p).tles = s.tles ∧ (s.enterSensing p).pool = s.pool
      ∧ (s.enterSensing p).qe = s.qe ∧ (s.enterSensing p).pending = s.pending :=
  ⟨rfl, rfl, rfl, rfl, rfl, rfl⟩

@[simp] theorem State.enterVacant_keeps :
    (s.enterVacant p).resetLow = s.resetLow ∧ (s.enterVacant p).psi = s.psi
      ∧ (s.enterVacant p).tles = s.tles ∧ (s.enterVacant p).pool = s.pool ∧ (s.enterVacant p).qe = s.qe
      ∧ (s.enterVacant p).pending = s.pending := by
  unfold State.enterVacant; dsimp only; split <;> simp

@[simp] theorem State.senseOff_keeps :
    (s.senseOff p).resetLow = s.resetLow ∧ (s.senseOff p).entries = s.entries
      ∧ (s.senseOff p).psi = s.psi ∧ (s.senseOff p).tles = s.tles ∧ (s.senseOff p).pool = s.pool
      ∧ (s.senseOff p).qe = s.qe ∧ (s.senseOff p).pending = s.pending :=
  ⟨rfl, rfl, rfl, rfl, rfl, rfl, rfl⟩

@[simp] theorem State.enterAfter_keeps (c : TearCause) :
    (s.enterAfter p c).resetLow = s.resetLow ∧ (s.enterAfter p c).psi = s.psi
      ∧ (s.enterAfter p c).tles = s.tles ∧ (s.enterAfter p c).pool = s.pool
      ∧ (s.enterAfter p c).qe = s.qe ∧ (s.enterAfter p c).pending = s.pending := by
  unfold State.enterAfter; split <;> simp

/-- A fold of notices changes nothing but the engines' counters and QE. -/
@[simp] theorem State.notices_keeps (ns : List Notice) :
    (ns.foldl (fun s n => s.notice p n) s).resetLow = s.resetLow ∧
      (ns.foldl (fun s n => s.notice p n) s).entries = s.entries ∧
      (ns.foldl (fun s n => s.notice p n) s).senses = s.senses ∧
      (ns.foldl (fun s n => s.notice p n) s).psi = s.psi ∧
      (ns.foldl (fun s n => s.notice p n) s).pool = s.pool ∧
      (ns.foldl (fun s n => s.notice p n) s).pending = s.pending := by
  refine ⟨?_, ?_, ?_, ?_, ?_, ?_⟩
  · exact foldl_keeps (·.resetLow) _ (fun t n => by simp) ns s
  · exact foldl_keeps (·.entries) _ (fun t n => by simp) ns s
  · exact foldl_keeps (·.senses) _ (fun t n => by simp) ns s
  · exact foldl_keeps (·.psi) _ (fun t n => by simp) ns s
  · exact foldl_keeps (·.pool) _ (fun t n => by simp) ns s
  · exact foldl_keeps (·.pending) _ (fun t n => by simp) ns s

@[simp] theorem State.teardown_keeps (c : TearCause) (k : Option Nat) :
    (s.teardown p c k).resetLow = s.resetLow ∧ (s.teardown p c k).pending = s.pending := by
  unfold State.teardown; dsimp only; split <;> simp

@[simp] theorem State.faultAssert_keeps :
    (s.faultAssert p).resetLow = s.resetLow ∧ (s.faultAssert p).pending = s.pending := by
  unfold State.faultAssert; split <;> simp

@[simp] theorem State.linkLoss_keeps (f : TxFrame) :
    (s.linkLoss p f).resetLow = s.resetLow ∧ (s.linkLoss p f).pending = s.pending := by
  unfold State.linkLoss; cases f <;> simp

/-! ### Shrink and the end of an event (R33, R135 to R140) -/

@[simp] theorem State.takeShrink_keeps :
    (s.takeShrink p).resetLow = s.resetLow ∧ (s.takeShrink p).senses = s.senses
      ∧ (s.takeShrink p).pending = s.pending := by
  unfold State.takeShrink; split <;> (try dsimp only) <;> (try split) <;> simp

@[simp] theorem State.takeWithdrawal_keeps :
    (s.takeWithdrawal p).resetLow = s.resetLow ∧ (s.takeWithdrawal p).pending = s.pending := by
  unfold State.takeWithdrawal; dsimp only; split <;> simp

@[simp] theorem State.takeOrder_keeps (o : PoolOrder) :
    (s.takeOrder o).resetLow = s.resetLow ∧ (s.takeOrder o).pending = s.pending := by
  cases o <;> simp [State.takeOrder]

@[simp] theorem State.takeOrders_keeps (n : Nat) :
    (State.takeOrders n s).resetLow = s.resetLow ∧ (State.takeOrders n s).pending = s.pending := by
  induction n generalizing s with
  | zero => simp [State.takeOrders]
  | succ n ih =>
    unfold State.takeOrders; split
    · simp
    · simp only [ih]
      exact ⟨(foldl_keeps (·.resetLow) State.takeOrder (fun t x => by simp) _ _).trans (by simp),
        (foldl_keeps (·.pending) State.takeOrder (fun t x => by simp) _ _).trans (by simp)⟩

@[simp] theorem State.settlePool_keeps :
    (s.settlePool).resetLow = s.resetLow ∧ (s.settlePool).pending = s.pending := by
  simp [State.settlePool]

@[simp] theorem State.endShrink_keeps :
    (s.endShrink).resetLow = s.resetLow ∧ (s.endShrink).entries = s.entries
      ∧ (s.endShrink).senses = s.senses ∧ (s.endShrink).psi = s.psi ∧ (s.endShrink).tles = s.tles
      ∧ (s.endShrink).pool = s.pool ∧ (s.endShrink).pending = s.pending := by
  unfold State.endShrink; split <;> (try split) <;> simp

@[simp] theorem State.conclude_keeps :
    (s.conclude).resetLow = s.resetLow ∧ (s.conclude).pending = s.pending := by
  simp [State.conclude]

@[simp] theorem State.finish_keeps :
    (s.finish).resetLow = s.resetLow ∧ (s.finish).pending = s.pending := by
  simp [State.finish]

/-- Where LC has taken every order there is nothing to settle. -/
theorem State.settlePool_of_done (h : s.pool.orders = []) : s.settlePool = s := by
  simp [State.settlePool, State.takeOrders, h]

/-- Where no SET_BUDGET is open the end of a shrink completes nothing (R140). -/
theorem State.endShrink_of_none (h : (s.qe.slots.find? fun sl => sl.kind == .setBudget) = none) : s.endShrink = s := by
  simp [State.endShrink, h]

/-- An event of LC that concerns neither BP nor an open SET_BUDGET ends as it stands. -/
theorem State.conclude_of_done (h : s.pool.orders = [])
    (hb : (s.qe.slots.find? fun sl => sl.kind == .setBudget) = none) : s.conclude = s := by
  rw [State.conclude, s.settlePool_of_done h, s.endShrink_of_none hb]

/-- An event that concerns neither BP nor an open SET_BUDGET ends with the ring accesses that may begin. -/
theorem State.finish_of_done (h : s.pool.orders = [])
    (hb : (s.qe.slots.find? fun sl => sl.kind == .setBudget) = none) : s.finish = s.modQe Qe.startAccesses := by
  rw [State.finish, s.conclude_of_done h hb]

/-- An event while RESET# is high. -/
theorem event_of_high (f : State → State) (h : s.resetLow = false) : event s f = .next (f s).finish := by
  simp [event, h]

/-- An event while RESET# is low is held (R1). -/
theorem event_of_low (f : State → State) (h : s.resetLow = true) : event s f = .next s := by
  simp [event, h]

/-- Every event answers a next state. -/
theorem event_next (f : State → State) : ∃ t, event s f = .next t := by
  unfold event; split <;> exact ⟨_, rfl⟩

/-- A host command that passes its admission test is an event (R164). -/
theorem hostCommand_of_admits (code : Byte) (f : State → State) (h : s.qe.admits code = true) :
    hostCommand s code f = event s f := by
  simp [hostCommand, h]

/-! ### Delivered frames and reports of PSI (R48, R53, R86 to R121) -/

@[simp] theorem State.completeAnnounce_keeps (bs : List Byte) :
    (s.completeAnnounce p bs).resetLow = s.resetLow ∧ (s.completeAnnounce p bs).senses = s.senses
      ∧ (s.completeAnnounce p bs).psi = s.psi ∧ (s.completeAnnounce p bs).pool = s.pool
      ∧ (s.completeAnnounce p bs).pending = s.pending := by
  unfold State.completeAnnounce; split <;> simp

@[simp] theorem State.dropForAnnounce_keeps (bs : List Byte) :
    (s.dropForAnnounce p bs).resetLow = s.resetLow ∧ (s.dropForAnnounce p bs).senses = s.senses
      ∧ (s.dropForAnnounce p bs).pending = s.pending := by
  unfold State.dropForAnnounce; split <;> simp

@[simp] theorem State.takeAnnounce_keeps (bs : List Byte) :
    (s.takeAnnounce p bs).resetLow = s.resetLow ∧ (s.takeAnnounce p bs).senses = s.senses
      ∧ (s.takeAnnounce p bs).pending = s.pending := by
  unfold State.takeAnnounce; dsimp only; split <;> (try split) <;> (try split) <;> simp

@[simp] theorem State.openClaim_keeps (n : Nat) (i : Byte) :
    (s.openClaim p n i).resetLow = s.resetLow ∧ (s.openClaim p n i).senses = s.senses
      ∧ (s.openClaim p n i).pending = s.pending := by
  unfold State.openClaim; dsimp only; split <;> simp

@[simp] theorem State.takeClaim_keeps (n : Nat) (i : Byte) :
    (s.takeClaim p n i).resetLow = s.resetLow ∧ (s.takeClaim p n i).senses = s.senses
      ∧ (s.takeClaim p n i).pending = s.pending := by
  unfold State.takeClaim; dsimp only; repeat' split
  all_goals simp

@[simp] theorem State.takeRenew_keeps (n : Nat) :
    (s.takeRenew p n).resetLow = s.resetLow ∧ (s.takeRenew p n).pending = s.pending := by
  unfold State.takeRenew; dsimp only; repeat' split
  all_goals simp

@[simp] theorem State.releasePowered_keeps (n : Nat) :
    (s.releasePowered p n).resetLow = s.resetLow ∧ (s.releasePowered p n).senses = s.senses
      ∧ (s.releasePowered p n).pending = s.pending := by
  unfold State.releasePowered; split <;> simp

@[simp] theorem State.takeRelease_keeps (n : Nat) :
    (s.takeRelease p n).resetLow = s.resetLow ∧ (s.takeRelease p n).senses = s.senses
      ∧ (s.takeRelease p n).pending = s.pending := by
  unfold State.takeRelease; dsimp only; repeat' split
  all_goals simp

@[simp] theorem State.takeDone_keeps (n : Nat) :
    (s.takeDone p n).resetLow = s.resetLow ∧ (s.takeDone p n).senses = s.senses
      ∧ (s.takeDone p n).pending = s.pending := by
  unfold State.takeDone; repeat' split
  all_goals simp

@[simp] theorem State.takeNote_keeps (bs : List Byte) :
    (s.takeNote p bs).resetLow = s.resetLow ∧ (s.takeNote p bs).senses = s.senses
      ∧ (s.takeNote p bs).pending = s.pending := by
  unfold State.takeNote; split <;> simp

@[simp] theorem State.takeFrame_keeps (k : FrameKind) (bs : List Byte) :
    (s.takeFrame p k bs).resetLow = s.resetLow ∧ (s.takeFrame p k bs).pending = s.pending := by
  unfold State.takeFrame; split <;> simp

@[simp] theorem State.takeLeaseExpiry_keeps :
    (s.takeLeaseExpiry p).resetLow = s.resetLow ∧ (s.takeLeaseExpiry p).senses = s.senses
      ∧ (s.takeLeaseExpiry p).pending = s.pending := by
  unfold State.takeLeaseExpiry; repeat' split
  all_goals simp

@[simp] theorem State.takeCutDeadline_keeps :
    (s.takeCutDeadline p).resetLow = s.resetLow ∧ (s.takeCutDeadline p).senses = s.senses
      ∧ (s.takeCutDeadline p).pending = s.pending := by
  unfold State.takeCutDeadline; repeat' split
  all_goals simp

@[simp] theorem State.applyRevoke_keeps (o : Nat) (g : Word16) (t v : Nat) :
    (s.applyRevoke p o g t v).resetLow = s.resetLow ∧ (s.applyRevoke p o g t v).senses = s.senses
      ∧ (s.applyRevoke p o g t v).pending = s.pending := by
  unfold State.applyRevoke; dsimp only; repeat' split
  all_goals simp

@[simp] theorem State.takeWaiting_keeps (w : Waiting) :
    (s.takeWaiting p w).resetLow = s.resetLow ∧ (s.takeWaiting p w).pending = s.pending := by
  unfold State.takeWaiting; split <;> simp

/-- Where nothing waits there is no REVOKE to take. -/
theorem State.takeRevokes_of_nil (h : (s.entry p).waiting = []) :
    s.takeRevokes p = s.modEntry p fun e => { e with waiting := [] } := by
  simp only [State.takeRevokes, h, List.foldl_nil]
  have hw : (s.entries[p.val]'p.isLt).waiting = [] := h
  simp [State.modEntry, hw]

@[simp] theorem State.takeRevokes_keeps :
    (s.takeRevokes p).resetLow = s.resetLow ∧ (s.takeRevokes p).senses = s.senses
      ∧ (s.takeRevokes p).pending = s.pending := by
  unfold State.takeRevokes
  refine ⟨?_, ?_, ?_⟩
  · rw [foldl_keeps (·.resetLow) _ (fun t w => by cases w <;> simp)]; simp
  · rw [foldl_keeps (·.senses) _ (fun t w => by cases w <;> simp)]; simp
  · rw [foldl_keeps (·.pending) _ (fun t w => by cases w <;> simp)]; simp

@[simp] theorem State.drainWaiting_keeps (n : Nat) :
    (State.drainWaiting n s p).resetLow = s.resetLow ∧ (State.drainWaiting n s p).pending = s.pending := by
  induction n generalizing s with
  | zero => simp [State.drainWaiting]
  | succ n ih => unfold State.drainWaiting; split <;> simp [ih]

@[simp] theorem State.deliver_keeps (k : FrameKind) (bs : List Byte) :
    (s.deliver p k bs).resetLow = s.resetLow ∧ (s.deliver p k bs).pending = s.pending := by
  unfold State.deliver; split <;> simp

@[simp] theorem State.concludeLowered_keeps (n : Nat) (b : Bool) :
    (s.concludeLowered p n b).resetLow = s.resetLow ∧ (s.concludeLowered p n b).senses = s.senses
      ∧ (s.concludeLowered p n b).pending = s.pending := by
  simp [State.concludeLowered]

@[simp] theorem State.releaseLowered_keeps :
    (s.releaseLowered p).resetLow = s.resetLow ∧ (s.releaseLowered p).senses = s.senses
      ∧ (s.releaseLowered p).pending = s.pending := by
  simp [State.releaseLowered]

@[simp] theorem State.lowered_keeps :
    (s.lowered p).resetLow = s.resetLow ∧ (s.lowered p).pending = s.pending := by
  unfold State.lowered; split
  · dsimp only; split <;> simp
  · simp

@[simp] theorem State.settledReport_keeps :
    (s.settledReport p).resetLow = s.resetLow ∧ (s.settledReport p).pending = s.pending := by
  unfold State.settledReport; dsimp only; repeat' split
  all_goals simp

@[simp] theorem State.startLease_keeps :
    (s.startLease p).resetLow = s.resetLow ∧ (s.startLease p).pending = s.pending := by
  unfold State.startLease; dsimp only; repeat' split
  all_goals simp

/-! ### The other ports -/

theorem State.count_tle_of_ne (f : Counters → Counters) (h : q ≠ p) : (s.count p f).tle q = s.tle q := by
  exact s.modTle_tle_of_ne p q _ h

theorem State.protocolError_tle_of_ne (h : q ≠ p) : (s.protocolError p).tle q = s.tle q := by
  exact s.count_tle_of_ne p q _ h

theorem State.mergeNotice_tle_of_ne (n : Notice) (h : q ≠ p) : (s.mergeNotice p n).tle q = s.tle q := by
  rcases s.mergeNotice_cases p n with e | e <;> rw [e]
  · rfl
  · rw [State.count_tle_of_ne _ p q _ h]; rfl

theorem State.notice_tle_of_ne (n : Notice) (h : q ≠ p) : (s.notice p n).tle q = s.tle q := by
  rcases s.notice_cases p n with e | e <;> rw [e]
  · rfl
  · exact s.mergeNotice_tle_of_ne p q n h

theorem State.queueFrame_tle_of_ne (f : TxFrame) (h : q ≠ p) : (s.queueFrame p f).tle q = s.tle q := by
  unfold State.queueFrame; dsimp only; split <;> (try split) <;>
    simp [State.modTle_tle_of_ne, State.protocolError_tle_of_ne, h]

theorem State.queueOffer_tle_of_ne (h : q ≠ p) : (s.queueOffer p).tle q = s.tle q := by
  exact s.queueFrame_tle_of_ne p q _ h

theorem State.queueCut_tle_of_ne (h : q ≠ p) : (s.queueCut p).tle q = s.tle q := by
  unfold State.queueCut; split <;> simp [State.queueFrame_tle_of_ne, h]

theorem State.sendClear_tle_of_ne (o : Option Nat) (h : q ≠ p) : (s.sendClear p o).tle q = s.tle q := by
  unfold State.sendClear; rw [State.count_tle_of_ne _ p q _ h, State.modTle_tle_of_ne _ p q _ h]

theorem State.raiseHeld_entry_of_ne (n : Nat) (h : q ≠ p) : (s.raiseHeld p n).entry q = s.entry q := by
  simp [State.raiseHeld, State.modEntry_entry_of_ne, h]

theorem State.lowerHeld_entry_of_ne (n : Nat) (h : q ≠ p) : (s.lowerHeld p n).entry q = s.entry q := by
  simp [State.lowerHeld, State.modEntry_entry_of_ne, h]

theorem State.setTier_entry_of_ne (n : Nat) (h : q ≠ p) : (s.setTier p n).entry q = s.entry q := by
  unfold State.setTier; split <;> simp [State.modEntry_entry_of_ne, h]

/-! ### The line of an own frame, and of a reception (R63, R66, R76) -/

/-- A moment of comparison lies in a one or zero cell, more than its low behind the cell's begin. -/
theorem comparedAt_iff (cells : List Cell) (us : Nat) :
    comparedAt cells us = true ↔ ∃ c, cells[us / 10]? = some c ∧ c ≠ .start ∧ c.low < us % 10 := by
  unfold comparedAt
  split <;> simp_all

/-- At a moment at which the line is compared the part has released it (R62, R76). -/
theorem comparedAt_released (cells : List Cell) (us : Nat) (h : comparedAt cells us = true) : pulledAt cells us = false := by
  obtain ⟨c, hc, -, hl⟩ := (comparedAt_iff cells us).1 h
  simp [pulledAt, hc]; omega

/-- Where the engine compares the line, the line is low exactly where another side pulls it low (R62, R76). -/
theorem Tle.compares_lineLow (t : Tle) (h : t.compares = true) : t.pullsLow = false ∧ t.lineLow = t.tapLow := by
  have hp : t.pullsLow = false := by
    unfold Tle.compares at h
    split at h
    · simp_all [Tle.pullsLow, comparedAt_released]
    · cases h
  exact ⟨hp, by simp [Tle.lineLow, hp]⟩

/-- Only a frame on the line is compared, in its cells. -/
theorem Tle.compares_frame (t : Tle) (x : TxItem) (seq : BitVec 4) (again : Bool) (left : Nat)
    (h : t.line = some (.frame x seq again left)) :
    t.compares = comparedAt (frameCells (x.frame.wire seq)) (x.frame.time - left) := by
  simp [Tle.compares, h]

/-- A start is taken where its low follows at least 8 one-cells; any other low is counted or ends the run. -/
theorem afterStart_cons (ones us : Nat) (rest : List Nat) :
    afterStart ones (us :: rest) =
      if us = 40 ∧ 8 ≤ ones then some rest else afterStart (if cellOfLow us = some .one then ones + 1 else 0) rest := by
  by_cases h : us = 40 <;> by_cases h2 : 8 ≤ ones <;> simp [afterStart, Cell.low, h, h2]

/-- The entry of a port is read from the lease table alone. -/
theorem State.entry_congr {s t : State} (h : t.entries = s.entries) (q : PortNo) : t.entry q = s.entry q := by
  simp [State.entry, h]

/-- The engine of a port is read from the engines alone. -/
theorem State.tle_congr {s t : State} (h : t.tles = s.tles) (q : PortNo) : t.tle q = s.tle q := by
  simp [State.tle, h]

/-- The Sense Unit of a port is read from the Sense Units alone. -/
theorem State.sense_congr {s t : State} (h : t.senses = s.senses) (q : PortNo) : t.sense q = s.sense q := by
  simp [State.sense, h]

/-- PSI's state for a port is read from PSI alone. -/
theorem State.power_congr {s t : State} (h : t.psi = s.psi) (q : PortNo) : t.power q = s.power q := by
  simp [State.power, h]

theorem State.startLowering_entry_of_ne (n : Nat) (l : Lowering) (h : q ≠ p) : (s.startLowering p n l).entry q = s.entry q := by
  unfold State.startLowering; rw [State.entry_congr (State.requestWrite_keeps _ p _ _).2.1]
  exact State.modEntry_entry_of_ne _ p q _ h

theorem State.concludeCut_entry_of_ne (n : Nat) (b : Bool) (h : q ≠ p) : (s.concludeCut p n b).entry q = s.entry q := by
  unfold State.concludeCut; rw [State.startLowering_entry_of_ne _ p q _ _ h, State.modEntry_entry_of_ne _ p q _ h]

end Sys2Proof.Machine
end

