-- ==== Sys2Proof/Laws/PerInstr.lean ====
section
/-! SUPPORT. Statements about every instruction as syntax, one lemma for each constructor. -/

namespace Sys2Proof.Laws.HostCode

open Sys2Proof Sys2Proof.Machine

/-- A host command has one of the fourteen codes of the command set, and the code that stands with its port byte is that
one; no other command has a port byte of an entry (08, The Command Set). -/
def Statement (i : Instr) : Prop :=
  (∀ c, hostCode i = some c → 1 ≤ c.toNat ∧ c.toNat ≤ 14) ∧ ∀ x, portField i = some x → hostCode i = some x.2.1

theorem holds (i : Instr) : Statement i := by
  cases i <;> simp [Statement, hostCode, portField]

theorem powerOnReset : Statement .powerOnReset := holds _

theorem resetRelease : Statement .resetRelease := holds _

theorem softReset : Statement .softReset := holds _

theorem enable (reportIe errorIe : Bool) : Statement (.enable reportIe errorIe) := holds _

theorem disable (reportIe errorIe : Bool) : Statement (.disable reportIe errorIe) := holds _

theorem intClear (value : Word32) : Statement (.intClear value) := holds _

theorem cmdTailWrite (value : Word32) : Statement (.cmdTailWrite value) := holds _

theorem rptHeadWrite (value : Word32) : Statement (.rptHeadWrite value) := holds _

theorem registerWrite (offset : BitVec 6) (width : AccessWidth) (value : Word32) :
    Statement (.registerWrite offset width value) := holds _

theorem commandFetch (entry : List Byte) : Statement (.commandFetch entry) := holds _

theorem heldEntryTake : Statement .heldEntryTake := holds _

theorem commandFetchBusError : Statement .commandFetchBusError := holds _

theorem reportWrite : Statement .reportWrite := holds _

theorem reportWriteBusError : Statement .reportWriteBusError := holds _

theorem configPort (tag : Word16) (port : Byte) (fields : PolicyFields) :
    Statement (.configPort tag port fields) := holds _

theorem portEnable (tag : Word16) (port : Byte) : Statement (.portEnable tag port) := holds _

theorem portDisable (tag : Word16) (port : Byte) : Statement (.portDisable tag port) := holds _

theorem setBudget (tag : Word16) (target : Word16) (preemption : Byte) :
    Statement (.setBudget tag target preemption) := holds _

theorem decide (tag : Word16) (port : Byte) (claimTag : Word16) (verdict tier : Byte) :
    Statement (.decide tag port claimTag verdict tier) := holds _

theorem revoke (tag : Word16) (port : Byte) (target : Byte) (override : Word16) :
    Statement (.revoke tag port target override) := holds _

theorem lineClear (tag : Word16) (port : Byte) : Statement (.lineClear tag port) := holds _

theorem relay (tag : Word16) (port : Byte) (count : Byte) (bytes : List Byte) :
    Statement (.relay tag port count bytes) := holds _

theorem queryPort (tag : Word16) (port : Byte) (sect : Byte) : Statement (.queryPort tag port sect) := holds _

theorem queryPool (tag : Word16) : Statement (.queryPool tag) := holds _

theorem queryLink (tag : Word16) (port : Byte) (clear : Byte) : Statement (.queryLink tag port clear) := holds _

theorem linkTest (tag : Word16) (port : Byte) (mode length : Byte) (pattern : List Byte) :
    Statement (.linkTest tag port mode length pattern) := holds _

theorem sync (tag : Word16) : Statement (.sync tag) := holds _

theorem abort (tag : Word16) (target : Word16) : Statement (.abort tag target) := holds _

theorem presenceBandChange (port : PortNo) (band : Band) : Statement (.presenceBandChange port band) := holds _

theorem attach (port : PortNo) : Statement (.attach port) := holds _

theorem detach (port : PortNo) : Statement (.detach port) := holds _

theorem faultInputFiltered (port : PortNo) : Statement (.faultInputFiltered port) := holds _

theorem limitWriteMade : Statement .limitWriteMade := holds _

theorem settled (port : PortNo) : Statement (.settled port) := holds _

theorem frameReceived (port : PortNo) (bytes : List Byte) : Statement (.frameReceived port bytes) := holds _

theorem transmitBegin (port : PortNo) : Statement (.transmitBegin port) := holds _

theorem frameSent (port : PortNo) : Statement (.frameSent port) := holds _

theorem collision (port : PortNo) : Statement (.collision port) := holds _

theorem ackWindowExpiry (port : PortNo) : Statement (.ackWindowExpiry port) := holds _

theorem clearSent (port : PortNo) : Statement (.clearSent port) := holds _

theorem lineClearReceived (port : PortNo) : Statement (.lineClearReceived port) := holds _

theorem leaseExpiry (port : PortNo) : Statement (.leaseExpiry port) := holds _

theorem decisionWindowExpiry (port : PortNo) : Statement (.decisionWindowExpiry port) := holds _

theorem waitLimitExpiry (port : PortNo) : Statement (.waitLimitExpiry port) := holds _

theorem cutDeadline (port : PortNo) : Statement (.cutDeadline port) := holds _

theorem clearRestEnd (port : PortNo) : Statement (.clearRestEnd port) := holds _

theorem faultCooldownEnd (port : PortNo) : Statement (.faultCooldownEnd port) := holds _

theorem linkTestReception (port : PortNo) (bytes : List Byte) : Statement (.linkTestReception port bytes) := holds _

theorem linkTestTimeout (port : PortNo) : Statement (.linkTestTimeout port) := holds _

theorem faultInputChange (port : PortNo) (asserted : Bool) : Statement (.faultInputChange port asserted) := holds _

theorem tapLevelChange (port : PortNo) (low : Bool) : Statement (.tapLevelChange port low) := holds _

theorem frameStart (port : PortNo) : Statement (.frameStart port) := holds _

end Sys2Proof.Laws.HostCode
end

