-- ==== Sys2Proof/WellFormed.lean ====
section
/-! DEFINITION. Which terms of Instr the part can meet. Fields held in bit vectors are in range by their type; what is
left are lists of a fixed number of places and the shape of a reception. -/

namespace Sys2Proof

/-- The bytes a reception can have collected when it ends (R66): a length byte above 18 ends it at once, and it never
collects more than header, length, payload and CRC. -/
def receptionWf (bs : List Byte) : Bool :=
  match bs with
  | _ :: l :: rest => if l.toNat > 18 then rest.isEmpty else rest.length ≤ l.toNat + 2
  | _ => true

/-- A term the part can meet: an entry has 32 bytes, a NOTE or pattern list sixteen places, a word access lies on a
word, a reception has the shape R66 gives. -/
def Instr.wf : Instr → Bool
  | .commandFetch entry => entry.length = 32
  | .registerWrite offset .word _ => offset.toNat % 4 = 0
  | .relay _ _ _ bytes => bytes.length = 16
  | .linkTest _ _ _ _ pattern => pattern.length = 16
  | .frameReceived _ bytes => receptionWf bytes
  | .linkTestReception _ bytes => receptionWf bytes
  | _ => true

end Sys2Proof
end

