-- ==== Sys2Proof/Tests/Slice0.lean ====
section
/-! SUPPORT. Tests: ill-formed terms that WellFormed refuses, figures of the spec, the decoding of ring entries, and for each
statement with hypotheses states and operands that meet them, clause by clause (theorems witness_…). -/

namespace Sys2Proof.Tests

open Sys2Proof Sys2Proof.Machine

/- One test after the other: run side by side, they would wait for each other with a thread each. -/
set_option Elab.async false

/-! ### Small states -/

/-- QE in RUNNING with rings of 16 entries. -/
def on : State := State.reset.modQe fun q => { q with engine := .running, enable := true, cmdSize := 16, rptSize := 16 }

/-- The module of the tests: tiers of 30 and 60 BU. -/
def twoTiers : ModuleRec := { id := 7, tiers := [30, 60] }

/-- An entry in POWERED at tier 0, 1 or 2, ceiling 100. -/
def powered (tier : Nat) : Entry :=
  let units := if tier = 0 then 4 else twoTiers.units tier
  { Entry.reset with
    state := .powered, cls := .one, floor := 4, held := units, tier := tier
    policy := { Policy.default with ceiling := 100 }
    module := some twoTiers
    lease := if tier = 0 then none
      else some { tier := tier, units := units, length := 30, remaining := 12000000, running := true } }

/-- An entry in CLAIMING for tier 2 with tier 1 in force. -/
def claiming (phase : ClaimPhase) : Entry :=
  { powered 1 with
    state := .claiming
    claim := some
      { tag := 5, tierClaimed := 2, moduleClaimId := 9, phase := phase
        granted := if phase = .awaitHost then none else some 2
        timer := if phase = .granting then none else some 1000
        grantLength := if phase = .granting then some 30 else none } }

/-- The claim of `claiming .awaitHost`. -/
def waitingClaim : ClaimRec :=
  { tag := 5, tierClaimed := 2, moduleClaimId := 9, phase := .awaitHost, granted := none, timer := some 1000
    grantLength := none }

/-- An entry in CUTTING from tier 2 to a target. -/
def cutting (target : Nat) : Entry :=
  { powered 2 with
    state := .cutting
    cut := some
      { target := target, targetUnits := (powered 2).unitsOf target, deadline := 200000, running := true, cause := .revoke
        cmdTag := some 8 } }

/-- An entry with no supply. -/
def plain (st : PortState) : Entry := { Entry.reset with state := st }

/-- Port 3 with an entry: powered where the entry holds units, its module attached, its link on, 400 BU of budget. -/
def port3 (e : Entry) : State :=
  ((((on.modEntry 3 fun _ => e).modPower 3 fun x => { x with pen := decide (e.held ≠ 0), applied := e.held }).modSense 3
    fun u => { u with mode := .attached, band := .c1 }).modTle 3 fun t =>
      { t with receiver := e.state.linked, detector := e.state.linked, guard := 200 }).modPool fun b =>
    { b with
      target := 400, effective := 400, committed := e.held
      grantOrder := b.grantOrder.set 3 (if e.tier = 0 then none else some 0), arrival := 1 }

/-- The engine of port 3 changed. -/
def tle3 (s : State) (f : Tle → Tle) : State := s.modTle 3 f

/-- A backlog of this many reports. -/
def filled (n : Nat) (s : State) : State := s.modQe fun q => { q with backlog := List.replicate n (.notice 0 .detach) }

/-- One open command on port 3 with order number 0. -/
def opened (kind : OpenKind) (code : Byte) (s : State) : State :=
  s.modQe fun q =>
    { q with
      nextOrder := 1, slots := [{ order := 0, tag := 8, code := code, port := 3, bound := some 3, kind := kind }] }

/-- Eight open commands. -/
def eightOpen (s : State) : State :=
  s.modQe fun q =>
    { q with
      nextOrder := 8
      slots := (List.range 8).map fun i =>
        { order := i, tag := 1, code := 0x06, port := 1, bound := some 1, kind := .revoke } }

/-- A line clear being sent. -/
def withClear (s : State) (order : Option Nat) : State := tle3 s fun t => { t with line := some (.clear order 10) }

/-- The bus with a write of port 3 in transfer. -/
def onBus (s : State) (w : LimitWrite) (void : Bool) : State :=
  s.modPsi fun b => { b with transfer := some { port := 3, write := w, void := void, left := 0 } }

/-- The wait list and its pool. -/
def waits (s : State) (target : Nat) (l : List WaitEntry) : State :=
  s.modPool fun b => { b with target := target, effective := max target b.committed, waitList := l, arrival := 9 }

/-- Port 6 in STARVED with the floor of class 1. -/
def starved6 (s : State) : State :=
  s.modEntry 6 fun _ => { Entry.reset with state := .starved, cls := .one, floor := 4 }

/-- A FLOOR entry of a port. -/
def floorOf (p : PortNo) (need priority : Nat) : WaitEntry :=
  { port := p, kind := .floor, need := need, priority := priority, arrival := p.val }

/-- A link test. -/
def someTest (mode : TestMode) (phase : TestPhase) : LinkTest :=
  { mode := mode, pattern := [1, 2], order := 0, timer := 100, phase := phase }

/-- The fields of a CONFIG_PORT with everything at the upper end of its range. -/
def topFields : PolicyFields :=
  { priority := 3, ceiling := 400, autoGrant := 1, leaseLength := 255, cutDeadline := 255, decisionWindow := 255
    waitLimit := 255, preemptible := 1, retryLimit := 3, faultCooldown := 255 }

/-- The policy of `powered` with this ceiling. -/
def ceilingFields (c : Word16) : PolicyFields :=
  { priority := 3, ceiling := c, autoGrant := 0, leaseLength := 30, cutDeadline := 20, decisionWindow := 25, waitLimit := 20
    preemptible := 1, retryLimit := 2, faultCooldown := 10 }

/-! ### WellFormed refuses -/

theorem test_wf_refuses_short_entry : (Instr.commandFetch (List.replicate 31 0)).wf = false := by decide
theorem test_wf_refuses_offset_in_a_word : (Instr.registerWrite 0x05 .word 0).wf = false := by decide
theorem test_wf_refuses_relay_list : (Instr.relay 0 0 1 (List.replicate 15 0)).wf = false := by decide
theorem test_wf_refuses_pattern_list : (Instr.linkTest 0 0 0 1 (List.replicate 17 0)).wf = false := by decide
theorem test_wf_refuses_long_reception : (Instr.frameReceived 0 [0, 0, 0, 0, 0]).wf = false := by decide
theorem test_wf_refuses_bytes_after_over_length : (Instr.linkTestReception 0 [0, 19, 0]).wf = false := by decide
theorem test_wf_takes_the_longest_frame : (Instr.frameReceived 0 (0 :: 18 :: List.replicate 20 0)).wf = true := by decide

/-! ### Figures of the spec -/

/-- The check value of R64's CRC over the ASCII digits 1 to 9. -/
theorem test_crc_of_the_digits : crc16 [0x31, 0x32, 0x33, 0x34, 0x35, 0x36, 0x37, 0x38, 0x39] = 0x6F91#16 := by
  decide +kernel

/-- R63: an ACK takes 560 us and a frame of 18 payload bytes 2000 us. -/
theorem test_line_times : lineTime 0 = 560 ∧ lineTime 18 = 2000 := by decide

/-- R63, R66: noise, then 8 one-cells, the start and the cells of two bytes, the second not finished. -/
theorem test_start_is_recognised :
    heardBytes ([2, 6, 100] ++ List.replicate 8 3 ++ [40] ++ [2, 6, 6, 6, 6, 6, 6, 10] ++ [2, 11]) = some [1]
      ∧ heardBytes (List.replicate 7 2 ++ [40, 2, 2]) = none ∧ heardBytes (List.replicate 8 2 ++ [39, 2]) = none
      ∧ heardBytes (List.replicate 8 2 ++ [6, 40]) = none := by decide +kernel

/-- R66: at a length byte above 18 the reception is over. -/
theorem test_reception_ends : endReception [0x70, 19, 5] = [0x70, 19] ∧ endReception [0, 0, 1, 2, 3] = [0, 0, 1, 2] := by
  decide

/-- R87: tiers ascend from above the floor and stay within 400 BU. -/
theorem test_announce_bounds :
    ascendingFrom 4 [5, 400] = true ∧ ascendingFrom 4 [4] = false ∧ ascendingFrom 4 [401] = false
      ∧ ascendingFrom 4 [9, 9] = false := by decide

/-- R40: a threshold is passed beyond its margin of 0.02 VIO (exactly the margin keeps the band, entry 46). -/
theorem test_band_hysteresis :
    Band.follow .c1 590 = .c1 ∧ Band.follow .c1 579 = .c2 ∧ Band.follow .c2 620 = .c2 ∧ Band.follow .c2 621 = .c1 := by
  decide

/-- R62 and 00_scope: low below 0.8 V, high above 2.0 V, between them as last read. -/
theorem test_tap_level :
    readsLow false 799 = true ∧ readsLow true 2001 = false ∧ readsLow false 800 = false ∧ readsLow true 800 = true
      ∧ readsLow true 2000 = true ∧ readsLow false 2000 = false ∧ readsLow false (-300) = true := by decide

/-- R108: at an applied level of 100 BU the margin is 12 and a draw of 113 is the first strike. -/
theorem test_overdraw_margin : isStrike 112 100 = false ∧ isStrike 113 100 = true ∧ isStrike 11 9 = false := by decide

/-- R23: the claim tag after 65535 is 1. -/
theorem test_claim_tag_wraps : nextClaimTag 65535 = 1 ∧ nextClaimTag 65534 = 65535 := by decide

/-- R172: a counter stays at 65535. -/
theorem test_counter_saturates : bump 65535 = 65535 ∧ bump 65534 = 65535 := by decide

/-- R22: at the last arrival number BP renumbers the live ones in their order. -/
theorem test_arrival_renumbering :
    let b : Pool :=
      { Pool.reset with
        arrival := 4294967295
        grantOrder := (Pool.reset.grantOrder.set 2 (some 70)).set 5 (some 40) }
    let c := b.recordGrant 7
    c.grantOrder[2] = some 1 ∧ c.grantOrder[5] = some 0 ∧ c.grantOrder[7] = some 2 ∧ c.arrival = 3 := by
  decide +kernel

/-! ### The decoding of ring entries (11, Command Entry) -/

/-- SET_BUDGET with tag 0x1234, target 0x0190 and preemption on. -/
theorem test_decode_set_budget :
    decodeEntry ([0x04, 0xFF, 0x34, 0x12, 0x90, 0x01, 0x01] ++ List.replicate 25 0) = some (.setBudget 0x1234 400 1) := by
  decide +kernel

/-- DECIDE of claim 0x0102 on port 2, GRANT of tier 3. -/
theorem test_decode_decide :
    decodeEntry ([0x05, 0x02, 0x01, 0x00, 0x02, 0x01, 0x01, 0x03] ++ List.replicate 24 0)
      = some (.decide 1 2 0x0102 1 3) := by
  decide +kernel

/-- REVOKE on port 6 to tier 1 with an override of 500 ms. -/
theorem test_decode_revoke :
    decodeEntry ([0x06, 0x06, 0x31, 0x00, 0x01, 0x00, 0xF4, 0x01] ++ List.replicate 24 0)
      = some (.revoke 0x31 6 1 500) := by
  decide +kernel

/-- CONFIG_PORT with every field at its top. -/
theorem test_decode_config_port :
    decodeEntry ([0x01, 0x05, 0x02, 0x00, 3, 0x90, 0x01, 1, 255, 255, 255, 255, 1, 3, 255] ++ List.replicate 17 0)
      = some (.configPort 2 5 topFields) := by
  decide +kernel

/-- The host's words have no code for 0x00 and 0x0F. -/
theorem test_decode_unknown :
    decodeEntry (List.replicate 32 0) = none ∧ decodeEntry (0x0F :: List.replicate 31 0) = none := by
  decide +kernel

/-! ### One step of a command -/

/-- The state after one command. -/
def after (c : Instr) (s : State) : State :=
  match exec c s with
  | .next t => t
  | .fault f => nomatch f
  | .refused _ => s

/-- R52, R49: a made floor write powers port 3 up; its teardown takes the power away at once. -/
theorem test_power_up_and_off :
    let s := (after (.attach 3) ((port3 (plain .sensing)).modSense 3 fun u =>
      { u with mode := .debounce, attachTimer := some 0, band := .c2 }))
    let t := after .limitWriteMade s
    (s.entry 3).held = 10 ∧ (s.power 3).pen = false ∧ (t.power 3).pen = true ∧ t.applied 3 = 10
      ∧ (after (.portDisable 1 3) t).applied 3 = 0 ∧ ((after (.portDisable 1 3) t).power 3).pen = false := by
  decide +kernel

/-- R111, R118: a REVOKE to tier 1 cuts from 60 to 30 BU at the module's DONE. -/
theorem test_revoke_to_done :
    let s := after (.revoke 9 3 1 0) (port3 (powered 2))
    let t := after .limitWriteMade
      (after (.frameReceived 3 (frameBytes .done 1 [1])) (after (.frameStart 3) s))
    (s.entry 3).state = .cutting ∧ (s.entry 3).held = 60 ∧ (t.entry 3).state = .powered ∧ (t.entry 3).held = 30
      ∧ t.applied 3 = 30 ∧ t.pool.committed = 30
      ∧ t.qe.backlog = [.notice 3 (.leaseChanged 1 30), .completion 9 0x06 3 .ok [1, 30, 0]] := by
  decide +kernel

/-- R165: the report at RPT_TAIL 15 of a ring of 16 goes to base + 480, and RPT_TAIL returns to 0. -/
theorem test_report_write_wraps :
    let s := (filled 1 on).modQe fun q =>
      { q with writing := true, rptBase := 0x1000, rptTail := 15, rptHead := 3, sequence := 0xFFFF }
    let t := after .reportWrite s
    t.qe.rptTail = 0 ∧ t.qe.sequence = 0 ∧ t.qe.intReport = true ∧ t.qe.lastWrite.map (·.1) = some 0x11E0 := by
  decide +kernel

/-- R163: CMD_HEAD goes from 15 to 0, and the entry read is taken. -/
theorem test_fetch_wraps :
    let s := on.modQe fun q => { q with cmdHead := 15, cmdTail := 0, fetching := true }
    let t := after (.commandFetch ([0x0D, 0, 0x77] ++ List.replicate 29 0)) s
    t.qe.cmdHead = 0 ∧ t.qe.fetching = false ∧ t.qe.backlog = [.completion 0x77 0x0D 0xFF .ok [0]] := by
  decide +kernel

/-- R163: the read of entry 14 of the ring at 0x1000 is made at 0x11C0. -/
theorem test_read_address :
    let s := on.modQe fun q => { q with cmdBase := 0x1000, cmdHead := 14, cmdTail := 14 }
    (after (.cmdTailWrite 15) s).qe.fetching = true ∧ (after (.cmdTailWrite 15) s).qe.lastRead = some 0x11C0 := by
  decide +kernel

/-- R73: with 199 us of high a frame does not begin. -/
theorem test_guard_of_a_frame :
    let s := tle3 (port3 (powered 1)) fun t => { t with queue := [⟨.ack 4, 0⟩], guard := 199 }
    (after (.transmitBegin 3) s).tle 3 = s.tle 3
      ∧ ((after (.transmitBegin 3) (tle3 s fun t => { t with guard := 200 })).tle 3).queue = [] := by decide +kernel

/-- R124 check 4: a REVOKE that waited behind an ANNOUNCE is over when the announcement's drop begins. -/
theorem test_revoke_at_a_drop :
    let s := (onBus (opened .revoke 0x06 (port3
      { powered 1 with
        held := 60, lowering := some .release
        waiting := [.frame .announce [7, 0, 0, 0, 0], .revoke 0 8 0 0, .frame .renew [0, 0]] }))
      { value := 30, dir := .lower } false)
    let t := after .limitWriteMade s
    (t.entry 3).lowering = some (.drop [7, 0, 0, 0, 0]) ∧ (t.entry 3).waiting = [.frame .renew [0, 0]]
      ∧ t.qe.backlog = [.notice 3 (.leaseChanged 1 30), .completion 8 0x06 3 .ok [0, 4, 0]] := by decide +kernel

/-- R140: a shrink ends, and its SET_BUDGET completes, when committed is at the target. -/
theorem test_shrink_ends :
    let s := after (.setBudget 6 30 0) (port3 (powered 2))
    let t := after .limitWriteMade (after (.cutDeadline 3) s)
    s.pool.effective = 60 ∧ (s.entry 3).state = .cutting ∧ t.pool.effective = 30
      ∧ (t.qe.backlog.getLast? = some (.completion 6 0x04 0xFF .ok [30, 0, 4, 0])
        ∨ t.qe.backlog.getLast? = some (.completion 6 0x04 0xFF .ok [30, 0, 30, 0])) := by
  decide +kernel

/-! ### Hypotheses that are met: the rings and the window -/

theorem witness_EveryStepAnswers :
    State.reset.pending = [] ∧ State.reset.due = []
      ∧ (State.reset.modPower 3 fun x => { x with settle := some 0 }).due = [.settled 3] := by decide +kernel

theorem witness_resets :
    State.reset.resetLow = false ∧ { State.reset with resetLow := true }.resetLow = true
      ∧ Instr.reportWrite ≠ .powerOnReset ∧ Instr.reportWrite ≠ .resetRelease := by decide +kernel

/-- A setup at the ends of what R160 allows. -/
def edgeSetup (base : Word32) : State :=
  State.reset.modQe fun q => { q with cmdBase := base, cmdSize := 16, rptBase := 0, rptSize := 1024 }

theorem witness_EnableChecksTheRingSetup :
    on.ready ∧ on.qe.enable = true ∧ (edgeSetup 0xFFFFFE00).ready ∧ (edgeSetup 0xFFFFFE00).qe.enable = false
      ∧ (edgeSetup 0xFFFFFE00).qe.ringSetup ∧ (edgeSetup 0xFFFFFE20).ready ∧ ¬ (edgeSetup 0xFFFFFE20).qe.ringSetup := by
  decide +kernel

theorem witness_DisableStopsQe :
    on.ready ∧ on.qe.enable = true ∧ (on.modQe fun q => q.halt .config).ready
      ∧ (on.modQe fun q => q.halt .config).qe.engine = .halted
      ∧ State.reset.ready ∧ State.reset.qe.enable = false ∧ State.reset.qe.engine = .stopped := by decide +kernel

theorem witness_InterruptAndIndexWrites :
    on.ready ∧ on.qe.engine = .running ∧ (15#32).toNat < on.qe.cmdSize.toNat ∧ on.qe.cmdSize.toNat ≤ (16#32).toNat
      ∧ (15#32).toNat < on.qe.rptSize.toNat ∧ on.qe.rptSize.toNat ≤ (16#32).toNat
      ∧ State.reset.qe.engine ≠ .running ∧ (0x05#6).toNat ∉ [0x04, 0x0C, 0x18, 0x28]
      ∧ (0x10#6).toNat ∈ [0x10, 0x14, 0x20, 0x24] ∧ State.reset.qe.enable = false ∧ AccessWidth.half ≠ .word := by
  decide +kernel

theorem witness_InterruptAndIndexWrites_reading :
    let s := on.modQe fun q => { q with cmdHead := 14 }
    s.ready ∧ s.qe.fetching = false ∧ s.qe.cmdHead ≠ 15 ∧ s.qe.held = none
      ∧ (s.modQe fun q => { q with cmdHead := 15 }).qe.cmdHead = 15
      ∧ (s.modQe fun q => { q with fetching := true }).qe.fetching = true := by decide +kernel

/-- A read in progress with 23 places of the backlog used. -/
def reading (s : State) : State := s.modQe fun q => { q with fetching := true, cmdTail := 1 }

theorem witness_TakenEntryIsItsCommand :
    let e : List Byte := 0x03 :: List.replicate 31 0
    let s := reading (filled 22 (opened .revoke 0x06 on))
    s.ready ∧ s.qe.backlog.length + s.qe.slots.length + 1 ≤ 24 ∧ entryCode e ∈ longCodes ∧ s.qe.slots.length < 8
      ∧ decodeEntry e = some (.portDisable 0 0) ∧ s.qe.fetching = true
      ∧ (on.modQe fun q => { q with held := some e }).ready
      ∧ (on.modQe fun q => { q with held := some e }).qe.held = some e
      ∧ (on.modQe fun q => { q with held := some e }).qe.engine = .running := by decide +kernel

theorem witness_FetchedEntryWithoutAnOwner :
    let s := reading (filled 23 on)
    let full := reading (filled 24 on)
    let stopped := full.modQe fun q => { q with engine := .stopped, enable := false }
    s.ready ∧ s.qe.fetching = true ∧ (entryCode (0x0F :: List.replicate 31 0)).toNat = 0x0F
      ∧ s.qe.backlog.length + s.qe.slots.length < 24
      ∧ full.ready ∧ full.qe.fetching = true ∧ full.qe.backlog.length + full.qe.slots.length = 24
      ∧ stopped.ready ∧ stopped.qe.fetching = true ∧ stopped.qe.engine ≠ .running
      ∧ (reading (eightOpen on)).ready ∧ (reading (eightOpen on)).qe.slots.length = 8 := by decide +kernel

/-- Two summaries wait. -/
def summed (s : State) : State :=
  s.modQe fun q => { q with summaries := (q.summaries.set 2 ⟨2, 0⟩).set 5 ⟨0x4000, 3⟩ }

theorem witness_RingAccessesEnd :
    let s := (filled 24 on).modQe fun q => { q with writing := true, fetching := true }
    s.ready ∧ s.qe.fetching = true ∧ s.qe.writing = true
      ∧ s.qe.backlog = .notice 0 .detach :: List.replicate 23 (.notice 0 .detach)
      ∧ (∀ p : PortNo, (s.summary p).kinds = 0)
      ∧ (summed s).ready ∧ ((summed s).summary 2).kinds ≠ 0
      ∧ ∀ q : PortNo, q < 2 → ((summed s).summary q).kinds = 0 := by decide +kernel

theorem witness_ReportsHaveTheirLayout :
    ({ Counters.zero with retries := 65535 } : Counters).bounded = true ∧ (65535 : Nat) ≤ 65535 := by decide

theorem witness_NoticeIsAppendedOrMerged :
    (on.summary 2).kinds = 0 ∧ (filled 23 on).qe.backlog.length + (filled 23 on).qe.slots.length + 0 < 24
      ∧ (filled 23 on).qe.reserved = false
      ∧ ((summed on).summary 2).kinds ≠ 0
      ∧ ¬ (filled 24 on).qe.backlog.length + (filled 24 on).qe.slots.length + 0 < 24 := by decide +kernel

/-! ### Hypotheses that are met: host commands -/

theorem witness_RefusedBeforeTheRule :
    (filled 23 on).takes ∧ portField (.queryLink 1 8 0) = some (1, 0x0B, 8) ∧ (8 : Nat) ≤ (8#8).toNat
      ∧ portField (.lineClear 1 0xFF) = some (1, 0x07, 0xFF) ∧ 0x07 ∈ longCodes ∧ (filled 23 on).qe.slots.length < 8
      ∧ hostCode (.queryPool 1) = some 0x0A ∧ 24 ≤ (filled 24 on).qe.backlog.length + (filled 24 on).qe.slots.length
      ∧ hostCode (.sync 1) = some 0x0D ∧ 0x0D ∈ longCodes ∧ 8 ≤ (eightOpen on).qe.slots.length := by decide +kernel

theorem witness_ConfigPortWritesAllOrNothing :
    (port3 (powered 2)).takes ∧ fieldsInRange topFields ∧ ¬ fieldsInRange { topFields with ceiling := 401 }
      ∧ ¬ fieldsInRange { topFields with leaseLength := 0 } ∧ fieldsInRange (ceilingFields 100)
      ∧ (ceilingFields 100).ceiling.toNat = ((port3 (powered 2)).entry 3).policy.ceiling
      ∧ (ceilingFields 100).leaseLength.toNat = ((port3 (powered 2)).entry 3).policy.leaseLength
      ∧ (ceilingFields 100).priority.toNat = ((port3 (powered 2)).entry 3).policy.priority := by decide +kernel

theorem witness_ConfigPortWritesAllOrNothing_moves :
    let s := waits (port3 { plain .starved with cls := .three, floor := 25 }) 24 [floorOf 1 40 2, floorOf 3 25 3]
    let f := { ceilingFields 0 with priority := 1 }
    s.takes ∧ fieldsInRange f ∧ f.ceiling.toNat = (s.entry 3).policy.ceiling
      ∧ f.leaseLength.toNat = (s.entry 3).policy.leaseLength ∧ f.priority.toNat ≠ (s.entry 3).policy.priority
      ∧ s.pool.effective = s.pool.target ∧ s.pool.committed ≤ s.pool.target ∧ s.pool.preemption = false
      ∧ s.waitListSorted ∧ (s.pool.waitList.map fun w => w.port).Nodup
      ∧ (s.pool.waitList.all fun w => decide (s.pool.target < s.pool.committed + w.need)
          && (w.kind = .floor || (s.entry w.port).claim.any fun c => c.timer.isSome)) = true := by decide +kernel

theorem witness_ConfigPortWritesAllOrNothing_admits :
    let s := waits (port3 { plain .starved with cls := .three, floor := 25 }) 25 [floorOf 1 40 2, floorOf 3 25 3]
    s.takes ∧ s.pool.waitList = [floorOf 1 40 2, floorOf 3 25 3] ∧ (floorOf 1 40 2).port ≠ 3
      ∧ (s.entry 3).state = .starved ∧ s.busConsistent ∧ s.pool.committed + 25 ≤ s.pool.target
      ∧ s.pool.target < s.pool.committed + 25 + 40 ∧ s.pool.effective = s.pool.target
      ∧ s.pool.preemption = false := by decide +kernel

theorem witness_LoweredCeilingCuts :
    let s := port3 (powered 2)
    s.takes ∧ s.portBacked 3 ∧ fieldsInRange (ceilingFields 59) ∧ (s.entry 3).state = .powered
      ∧ (s.entry 3).lowering = none ∧ (s.entry 3).tier ≠ 0 ∧ (ceilingFields 59).ceiling.toNat < (s.entry 3).policy.ceiling
      ∧ (ceilingFields 59).ceiling.toNat < (s.entry 3).unitsOf (s.entry 3).tier
      ∧ (ceilingFields 59).priority.toNat = (s.entry 3).policy.priority
      ∧ ((s.tle 3).queue.all fun x => x.frame.kind != .offer && x.frame.kind != .cut) = true
      ∧ (s.entry 3).module = some twoTiers ∧ 1 ≤ twoTiers.tiers.length ∧ twoTiers.tiers.length ≤ 6 := by decide +kernel

theorem witness_LoweredCeilingCuts_claims :
    let h := port3 (claiming .awaitHost)
    let g := port3 (claiming .granting)
    let c := port3 (cutting 1)
    h.takes ∧ (h.entry 3).claim = some waitingClaim ∧ (h.pool.waitList.all fun w => w.port != 3) = true
      ∧ (h.tle 3).answerRoom ∧ (ceilingFields 59).ceiling.toNat < (h.entry 3).policy.ceiling
      ∧ (ceilingFields 59).ceiling.toNat < (h.entry 3).unitsOf 2 ∧ (h.entry 3).unitsOf (h.entry 3).tier ≤ 59
      ∧ g.takes ∧ (g.entry 3).state = .claiming ∧ ((g.entry 3).claim.any fun x => decide (x.phase = .granting)) = true
      ∧ c.takes ∧ (c.entry 3).state = .cutting ∧ (ceilingFields 60).ceiling.toNat ≠ (c.entry 3).policy.ceiling
      ∧ (c.entry 3).unitsOf (c.entry 3).tier ≤ (ceilingFields 60).ceiling.toNat := by decide +kernel

theorem witness_LoweredCeilingCuts_budget :
    let b := waits (port3 (claiming .awaitBudget)) 40 [{ port := 3, kind := .tier, need := 30, priority := 3, arrival := 0 }]
    b.takes ∧ (b.entry 3).state = .claiming ∧ ((b.entry 3).claim.any fun x => decide (x.phase = .awaitBudget)) = true
      ∧ b.poolQuiet 3 ∧ (b.tle 3).answerRoom ∧ 59 < (b.entry 3).unitsOf 2 ∧ (b.entry 3).unitsOf (b.entry 3).tier ≤ 59
      ∧ (port3 (claiming .awaitHost)).poolQuiet 3 ∧ 29 < ((port3 (claiming .awaitHost)).entry 3).unitsOf 1
      ∧ (twoTiers.tiers.filter fun u => u ≤ 29).length < ((port3 (claiming .awaitHost)).entry 3).tier := by decide +kernel

theorem witness_LoweredCeilingCuts_cutting :
    let c := port3 (cutting 1)
    let l := port3 { powered 2 with lowering := some .release }
    c.takes ∧ (c.entry 3).claim = none ∧ (c.entry 3).lowering = none ∧ 29 < (c.entry 3).unitsOf (c.entry 3).tier
      ∧ 59 < (c.entry 3).unitsOf (c.entry 3).tier ∧ (twoTiers.tiers.filter fun u => u ≤ 29).length < 1
      ∧ 1 ≤ (twoTiers.tiers.filter fun u => u ≤ 59).length ∧ (twoTiers.tiers.filter fun u => u ≤ 59).length < (c.entry 3).tier
      ∧ l.takes ∧ (l.entry 3).lowering.isSome = true ∧ (l.entry 3).claim = none
      ∧ 59 < (l.entry 3).unitsOf (l.entry 3).tier := by decide +kernel

theorem witness_PortEnable :
    (port3 (plain .off)).takes ∧ (3#8 : Byte) = byteOf (3 : PortNo).val ∧ ((port3 (plain .off)).entry 3).state = .off
      ∧ ((withClear (port3 (plain .off)) none).tle 3).sendingClear = true ∧ (withClear (port3 (plain .off)) none).takes
      ∧ ((port3 (plain .off)).tle 3).sendingClear = false ∧ ((port3 (plain .off)).tle 3).test = none
      ∧ (port3 (powered 1)).takes ∧ ((port3 (powered 1)).entry 3).state ≠ .off := by decide +kernel

/-- What the teardowns ask of a state. -/
abbrev alone (s : State) : Prop := s.poolQuiet 3 ∧ s.busConsistent ∧ s.offWithoutPen 3 ∧ s.noSync

theorem witness_PortDisable :
    (port3 (plain .off)).takesLong ∧ ((port3 (plain .off)).entry 3).state = .off
      ∧ (port3 (plain .starved)).takesLong ∧ alone (port3 (plain .starved))
      ∧ ((port3 (plain .starved)).entry 3).state ∈ [.vacant, .sensing, .starved, .clearing, .faulted]
      ∧ (opened (.relay 4) 0x08 (port3 (powered 2))).takesLong ∧ alone (opened (.relay 4) 0x08 (port3 (powered 2)))
      ∧ ((port3 (powered 2)).entry 3).state ∈ [.powering, .powered, .claiming, .cutting] := by
  and_intros <;> decide +kernel

theorem witness_SetBudgetWritesTheAccount :
    let s := (opened .setBudget 0x04 (port3 (powered 2))).modPool fun b => { b with target := 50, effective := 60 }
    (port3 (powered 2)).takesLong ∧ (port3 (powered 2)).pool.committed ≤ (60#16).toNat
      ∧ (port3 (powered 2)).qe.openBudgets = 0 ∧ (port3 (powered 2)).pool.waitList = []
      ∧ (4000#16).toNat ≤ 4000 ∧ 4000 < (4001#16).toNat ∧ (1#8).toNat < 2 ∧ 2 ≤ (2#8).toNat
      ∧ s.takesLong ∧ (after (.setBudget 1 60 0) s).pool.committed ≤ (after (.setBudget 1 60 0) s).pool.target
      ∧ (after (.setBudget 1 59 0) s).pool.target < (after (.setBudget 1 59 0) s).pool.committed := by decide +kernel

theorem witness_SetBudgetWritesTheAccount_shrinks :
    let s := port3 (powered 2)
    s.takesLong ∧ (29#16).toNat < s.pool.committed ∧ (0 : Int) < s.pool.committed - (29#16).toNat ∧ s.pool.waitList = []
      ∧ s.qe.openBudgets = 0 ∧ (s.entry 3).state = .powered ∧ (s.entry 3).tier ≠ 0 ∧ (s.entry 3).lowering = none
      ∧ (∀ p : PortNo, (s.entry p).tier ≠ 0 → (s.entry p).state = .powered)
      ∧ (∀ p : PortNo, (s.tle p).waits .cut = false) := by decide +kernel

theorem witness_DecideRefusedOrDenied :
    let s := port3 (claiming .awaitHost)
    s.takes ∧ (0#8).toNat ∉ [1, 2] ∧ (1#8).toNat ∈ [1, 2] ∧ (5#16) ≠ 0
      ∧ ((s.entry 3).claim.any fun c => c.phase = .awaitHost && c.tag = 6) = false
      ∧ (s.entry 3).claim = some waitingClaim ∧ waitingClaim.phase = .awaitHost ∧ waitingClaim.tag = 5
      ∧ (1#8).toNat ≤ (s.entry 3).tier ∧ waitingClaim.tierClaimed < (3#8).toNat
      ∧ (s.pool.waitList.all fun w => w.port != 3) = true
      ∧ ((s.tle 3).queue.filter fun x => x.frame.kind = .grant || x.frame.kind = .deny).length < 2 := by decide +kernel

theorem witness_DecideGrants :
    let s := port3 (claiming .awaitHost)
    let tight := s.modPool fun b => { b with target := 59, effective := 59 }
    let just := s.modPool fun b => { b with target := 60, effective := 60 }
    just.takes ∧ just.busConsistent ∧ just.pool.waitList = [] ∧ just.pool.effective = just.pool.target
      ∧ just.pool.committed ≤ just.pool.target ∧ (just.entry 3).claim = some waitingClaim
      ∧ (just.entry 3).tier < (2#8).toNat ∧ (2#8).toNat ≤ waitingClaim.tierClaimed
      ∧ (just.entry 3).unitsOf 2 ≤ (just.entry 3).policy.ceiling ∧ (just.entry 3).held ≤ (just.entry 3).unitsOf 2
      ∧ just.pool.committed + ((just.entry 3).unitsOf 2 - (just.entry 3).held) ≤ just.pool.target
      ∧ tight.takes ∧ tight.busConsistent ∧ tight.pool.effective = tight.pool.target
      ∧ tight.pool.committed ≤ tight.pool.target
      ∧ tight.pool.target < tight.pool.committed + ((tight.entry 3).unitsOf 2 - (tight.entry 3).held)
      ∧ (tight.entry 3).policy.waitLimit ≠ 0 ∧ tight.pool.preemption = false
      ∧ tight.pool.arrival < 4294967295 := by decide +kernel

/-- Port 3's claim waits for the host, port 6 is leased at tier 2, and 59 BU are there for the two. -/
def contested : State :=
  ((port3 { claiming .awaitHost with policy := { (claiming .awaitHost).policy with priority := 1 } }).modEntry 6 fun _ =>
    powered 2).modPool fun b =>
      { b with target := 119, effective := 119, committed := 90, preemption := true, grantOrder := b.grantOrder.set 6 (some 1) }

theorem witness_DecideGrants_preempts :
    contested.takes ∧ contested.busConsistent ∧ contested.pool.waitList = []
      ∧ contested.pool.effective = contested.pool.target ∧ contested.pool.committed ≤ contested.pool.target
      ∧ (contested.entry 3).claim = some waitingClaim ∧ (contested.entry 3).state = .claiming
      ∧ contested.pool.target < contested.pool.committed + ((contested.entry 3).unitsOf 2 - (contested.entry 3).held)
      ∧ (contested.entry 3).policy.waitLimit ≠ 0 ∧ (∀ q : PortNo, (contested.tle q).waits .cut = false)
      ∧ (contested.entry 6).state = .powered ∧ (contested.entry 6).policy.preemptible = true
      ∧ (contested.entry 3).policy.priority < (contested.entry 6).policy.priority := by decide +kernel

/-- R35, R129: the claim that does not fit cuts the other port. -/
theorem test_decide_preempts :
    let t := after (.decide 1 3 5 1 2) contested
    (t.entry 6).state = .cutting ∧ ((t.entry 6).cut.any fun c => c.target = 0 && c.cause = .preempt) = true
      ∧ (t.entry 3).state = .claiming := by decide +kernel

theorem witness_DecideGrants_never_waits :
    let e := { claiming .awaitHost with policy := { (claiming .awaitHost).policy with waitLimit := 0 } }
    let s := (port3 e).modPool fun b => { b with target := 59, effective := 59 }
    s.takes ∧ s.busConsistent ∧ s.pool.waitList = [] ∧ s.pool.committed ≤ s.pool.target
      ∧ (s.entry 3).claim = some waitingClaim ∧ (s.entry 3).policy.waitLimit = 0 ∧ (s.tle 3).answerRoom
      ∧ s.pool.target < s.pool.committed + ((s.entry 3).unitsOf 2 - (s.entry 3).held)
      ∧ s.pool.arrival < 4294967295 := by decide +kernel

/-- A claim for tier 2 made at the floor. -/
def floorClaim : Entry := { powered 0 with state := .claiming, claim := some waitingClaim }

theorem witness_RevokeThatCutsNothing_denies :
    let s := port3 floorClaim
    s.takesLong ∧ (s.entry 3).state = .claiming ∧ (s.entry 3).lowering = none ∧ s.poolQuiet 3 ∧ (s.tle 3).answerRoom
      ∧ (s.entry 3).tier ≤ (0#8).toNat ∧ (s.entry 3).claim = some waitingClaim
      ∧ (0#8).toNat < waitingClaim.granted.getD waitingClaim.tierClaimed ∧ ¬ 5 < (0#8).toNat := by decide +kernel

/-- R124 checks 5 and 8: the claim is denied, and the REVOKE completes OK with tier 0 and the floor's 4 BU. -/
theorem test_revoke_denies_floor_claim :
    let t := after (.revoke 8 3 0 0) (port3 floorClaim)
    (t.entry 3).state = .powered ∧ (t.entry 3).claim = none
      ∧ t.qe.backlog = [.notice 3 (.claimDenied 5 .reducing), .completion 8 6 3 .ok [0, 4, 0]] ∧ t.qe.slots = [] := by
  decide +kernel

theorem witness_RevokeThatCutsNothing :
    let s := port3 { powered 1 with lowering := some .release }
    let g := port3 (claiming .granting)
    5 < (6#8).toNat ∧ 2550 < (2560#16).toNat ∧ ¬ 2550 < (2550#16).toNat
      ∧ g.takesLong ∧ (g.entry 3).state = .claiming ∧ ((g.entry 3).claim.any fun c => c.phase = .granting) = true
      ∧ s.takesLong ∧ (s.entry 3).lowering = some .release ∧ (s.entry 3).claim = none := by decide +kernel

theorem witness_RevokeThatCutsNothing_at_once :
    let w := port3 (claiming .awaitHost)
    (port3 (powered 1)).takesLong ∧ ((port3 (powered 1)).entry 3).claim = none
      ∧ ((port3 (powered 1)).entry 3).lowering = none ∧ ((port3 (powered 1)).entry 3).tier ≤ (1#8).toNat
      ∧ w.takesLong ∧ ((w.entry 3).claim.all fun c => c.granted.getD c.tierClaimed ≤ (2#8).toNat) = true := by
  decide +kernel

theorem witness_RevokeCuts :
    let s := port3 (powered 2)
    let c := port3 (cutting 1)
    let w := port3 (claiming .awaitHost)
    s.takesLong ∧ (s.entry 3).lowering = none ∧ (1#8).toNat < (s.entry 3).tier ∧ (s.entry 3).state = .powered
      ∧ (s.entry 3).claim = none ∧ (10 ≤ (10#16).toNat ∧ (10#16).toNat ≤ 2550 ∧ (10#16).toNat % 10 = 0)
      ∧ ((s.tle 3).queue.all fun x => x.frame.kind != .cut && x.frame.kind != .deny && x.frame.kind != .grant) = true
      ∧ c.takesLong ∧ (c.entry 3).state = .cutting ∧ (c.entry 3).cut = (cutting 1).cut ∧ (c.entry 3).claim = none
      ∧ (c.entry 3).lowering = none ∧ (0#8).toNat < (c.entry 3).tier
      ∧ w.takesLong ∧ w.poolQuiet 3 ∧ (w.entry 3).claim = some waitingClaim ∧ (0#8).toNat < (w.entry 3).tier
      ∧ (w.entry 3).lowering = none := by decide +kernel

theorem witness_LineClearTearsThePortDown :
    (port3 (plain .off)).takesLong ∧ ((port3 (plain .off)).entry 3).state ∉ [.powering, .powered, .claiming, .cutting]
      ∧ (opened .revoke 0x06 (port3 (cutting 1))).takesLong ∧ alone (opened .revoke 0x06 (port3 (cutting 1))) := by
  decide +kernel

/-- A NOTE of a RELAY waits. -/
def noteItem (order : Nat) : TxItem := { frame := .note order 8 [1, 2], collisions := 0 }

theorem witness_RelayQueuesANote :
    let two := tle3 (port3 (powered 1)) fun t => { t with queue := [noteItem 0, noteItem 1] }
    let one := tle3 (port3 (powered 1)) fun t => { t with queue := [noteItem 0] }
    (List.replicate 16 (0#8)).length = 16 ∧ (port3 (plain .off)).takesLong ∧ ((port3 (plain .off)).entry 3).module = none
      ∧ 16 < (17#8).toNat ∧ (16#8).toNat ≤ 16 ∧ one.takesLong ∧ two.takesLong ∧ (one.entry 3).module.isSome = true
      ∧ 2 ≤ (two.tle 3).notesHeld ∧ (one.tle 3).notesHeld < 2 := by decide +kernel

theorem witness_QueriesShowTheState :
    let s := port3 (claiming .awaitBudget)
    let c := port3 (cutting 0)
    s.takes ∧ c.takes ∧ 4 ≤ (4#8).toNat ∧ (s.entry 3).module = some twoTiers ∧ twoTiers.tiers.length ≤ 6
      ∧ (s.entry 3).cut = none ∧ (s.entry 3).claim.isSome = true ∧ (c.entry 3).claim = none
      ∧ (c.entry 3).cut.isSome = true ∧ s.pool.target < 4096 ∧ s.pool.effective < 4096 ∧ s.pool.committed < 4096
      ∧ s.pool.waitList.length ≤ 8 ∧ (s.pool.waitList.all fun w => decide (w.need < 512 ∧ w.priority < 4)) = true
      ∧ (port3 (plain .off)).takes ∧ ((port3 (plain .off)).entry 3).module = none
      ∧ ((port3 (plain .off)).entry 3).claim = none ∧ ((port3 (plain .off)).entry 3).cut = none
      ∧ ((port3 (powered 1)).entry 3).claim = none ∧ ((port3 (powered 1)).entry 3).cut = none := by decide +kernel

theorem witness_QueryLinkTakesThenClears :
    (port3 (powered 1)).takes ∧ (8 : Nat) ≤ (8#8).toNat ∧ 2 ≤ (2#8).toNat ∧ (1#8).toNat = 1
      ∧ (7#8 : Byte) = byteOf (7 : PortNo).val := by decide +kernel

theorem witness_LinkTestStarts :
    let s := port3 (plain .off)
    s.takesLong ∧ (List.replicate 16 (1#8)).length = 16 ∧ ¬ (2 ≤ (1#8).toNat ∨ (16#8).toNat = 0 ∨ 16 < (16#8).toNat)
      ∧ (2 ≤ (1#8).toNat ∨ (17#8).toNat = 0 ∨ 16 < (17#8).toNat)
      ∧ (s.entry 3).state = .off ∧ (s.tle 3).sendingClear = false ∧ (s.tle 3).test = none
      ∧ ((withClear s none).tle 3).sendingClear = true ∧ (withClear s none).takesLong := by decide +kernel

/-- A REVOKE and a SYNC that waits for it alone. -/
def synced : State :=
  (port3 (cutting 1)).modQe fun q =>
    { q with
      nextOrder := 2
      slots :=
        [ { order := 0, tag := 8, code := 0x06, port := 3, bound := some 3, kind := .revoke }
        , { order := 1, tag := 9, code := 0x0D, port := 0xFF, bound := none, kind := .sync [0] 1 } ] }

theorem witness_SyncWaitsAndIsRelieved :
    (port3 (powered 1)).takesLong ∧ (port3 (powered 1)).qe.slots = [] ∧ synced.takesLong ∧ synced.qe.slots ≠ []
      ∧ (synced.qe.slots.map fun sl => sl.order) = [0, 1] := by decide +kernel

theorem witness_AbortEndsTheOldest :
    let s := opened .revoke 0x06 (port3 (cutting 1))
    s.takes ∧ (s.qe.slots.all fun x => x.tag != 7) = true ∧ s.noSync
      ∧ (s.qe.slots.find? fun x => x.tag == 8).isSome = true := by decide +kernel

/-! ### Hypotheses that are met: presence, faults, power -/

/-- The Sense Unit of port 3 changed. -/
def sense3 (s : State) (f : SenseUnit → SenseUnit) : State := s.modSense 3 f

theorem witness_BandChangeFollowsTheMode :
    let s := port3 (powered 1)
    s.ready ∧ (s.sense 3).band ≠ .low ∧ (s.sense 3).mode = .attached ∧ Band.low.present = false
      ∧ (sense3 s fun u => { u with mode := .watch, band := .absent }).ready
      ∧ (sense3 s fun u => { u with mode := .debounce, band := .c3 }).ready
      ∧ (sense3 s fun u => { u with mode := .disabled }).ready := by decide +kernel

/-- Port 3 in SENSING at the end of its debounce, in class 2, with this target. -/
def arriving (target : Nat) : State :=
  (sense3 (port3 (plain .sensing)) fun u => { u with mode := .debounce, attachTimer := some 0, band := .c2 }).modPool
    fun b => { b with target := target, effective := target }

theorem witness_AttachAsksForTheFloor :
    (arriving 10).ready ∧ attachClass ((arriving 10).sense 3).band = some (.two, 10)
      ∧ ((arriving 10).entry 3).state = .sensing ∧ ((arriving 10).sense 3).mode = .debounce
      ∧ ((arriving 10).sense 3).attachTimer.isSome = true ∧ ((arriving 10).entry 3).held = 0
      ∧ (arriving 10).busConsistent ∧ (arriving 10).pool.waitList = []
      ∧ (arriving 10).pool.effective = (arriving 10).pool.target
      ∧ (arriving 10).pool.committed ≤ (arriving 10).pool.target ∧ (arriving 10).pool.arrival < 4294967295
      ∧ (arriving 10).pool.committed + 10 ≤ (arriving 10).pool.target := by decide +kernel

theorem witness_AttachAsksForTheFloor_starved :
    (arriving 9).ready ∧ (arriving 9).busConsistent ∧ (arriving 9).pool.effective = (arriving 9).pool.target
      ∧ (arriving 9).pool.committed ≤ (arriving 9).pool.target
      ∧ (arriving 9).pool.target < (arriving 9).pool.committed + 10 ∧ (arriving 9).pool.preemption = false
      ∧ (port3 (powered 1)).ready ∧ ((port3 (powered 1)).entry 3).state ≠ .sensing := by decide +kernel

theorem witness_AttachAsksForTheFloor_behind :
    let s := waits (arriving 10) 10 [floorOf 1 25 3]
    s.ready ∧ attachClass (s.sense 3).band = some (.two, 10) ∧ (s.entry 3).state = .sensing
      ∧ s.pool.waitList = [floorOf 1 25 3] ∧ (floorOf 1 25 3).priority ≤ (s.entry 3).policy.priority
      ∧ (floorOf 1 25 3).arrival < s.pool.arrival ∧ s.pool.target < s.pool.committed + 25
      ∧ s.pool.effective = s.pool.target ∧ s.pool.committed ≤ s.pool.target ∧ s.pool.arrival < 4294967295
      ∧ s.pool.preemption = false ∧ (s.entry 3).held = 0 := by decide +kernel

/-- The arrival counter at its last value, with two grant order records. -/
def lastArrival : State :=
  (arriving 9).modPool fun b =>
    { b with arrival := 4294967295, grantOrder := (b.grantOrder.set 2 (some 70)).set 5 (some 40) }

theorem witness_AttachAsksForTheFloor_renumbers :
    lastArrival.ready ∧ attachClass (lastArrival.sense 3).band = some (.two, 10) ∧ (lastArrival.entry 3).state = .sensing
      ∧ (lastArrival.sense 3).mode = .debounce ∧ (lastArrival.sense 3).attachTimer.isSome = true
      ∧ (lastArrival.entry 3).held = 0 ∧ lastArrival.pool.waitList = []
      ∧ lastArrival.pool.effective = lastArrival.pool.target ∧ lastArrival.pool.committed ≤ lastArrival.pool.target
      ∧ lastArrival.pool.arrival = 4294967295
      ∧ (∀ q : PortNo, ((lastArrival.grantRecord q).all fun n => decide (n < 4294967295)) = true)
      ∧ lastArrival.pool.target < lastArrival.pool.committed + 10 ∧ lastArrival.pool.preemption = false := by decide +kernel

/-- R22: the FLOOR entry stands behind the two records, which keep their order. -/
theorem test_attach_renumbers :
    let b := (after (.attach 3) lastArrival).pool
    b.grantOrder[2] = some 1 ∧ b.grantOrder[5] = some 0 ∧ (b.waitList.map fun w => w.arrival) = [2] ∧ b.arrival = 3 := by
  decide +kernel

/-- Port 3 whose detach debounce has run out. -/
def leaving (e : Entry) : State := sense3 (port3 e) fun u => { u with band := .absent, detachTimer := some 0 }

theorem witness_DetachTearsThePortDown :
    (port3 (powered 1)).ready ∧ ((port3 (powered 1)).sense 3).detachTimer = none
      ∧ (leaving (powered 2)).ready ∧ ((leaving (powered 2)).sense 3).detachTimer.isSome = true
      ∧ ((leaving (powered 2)).sense 3).band.present = false
      ∧ ((leaving (powered 2)).entry 3).state ∈ [.powering, .starved, .powered, .claiming, .cutting, .clearing]
      ∧ (leaving (powered 2)).poolQuiet 3 ∧ (leaving (powered 2)).busConsistent ∧ (leaving (powered 2)).offWithoutPen 3
      ∧ (leaving (powered 2)).noSync := by decide +kernel

theorem witness_DetachTearsThePortDown_admits :
    let s := waits (starved6 (leaving (powered 2))) 60 [floorOf 6 4 0]
    s.ready ∧ (s.sense 3).detachTimer.isSome = true ∧ (s.sense 3).band.present = false ∧ (s.entry 3).state = .powered
      ∧ s.pool.waitList = [floorOf 6 4 0] ∧ (floorOf 6 4 0).port ≠ 3 ∧ (s.entry 6).state = .starved
      ∧ s.pool.committed - (s.entry 3).held + 4 ≤ s.pool.target ∧ s.pool.effective = s.pool.target
      ∧ s.pool.committed ≤ s.pool.target ∧ s.busConsistent ∧ s.offWithoutPen 3 ∧ s.noSync := by decide +kernel

theorem witness_DetachTearsThePortDown_elsewhere :
    (leaving (plain .faulted)).ready ∧ ((leaving (plain .faulted)).entry 3).state = .faulted
      ∧ (leaving (plain .off)).ready ∧ ((leaving (plain .off)).entry 3).state ∈ [.off, .vacant, .sensing] := by
  decide +kernel

/-- Port 3 with its fault input asserted and the filter out. -/
def faulty (e : Entry) : State := sense3 (port3 e) fun u => { u with fault := true, filter := some 0 }

theorem witness_FaultInputIsFilteredAndTaken :
    let s := faulty { powered 2 with faults := 1 }
    let last := faulty { powered 2 with faults := 2 }
    s.ready ∧ (s.sense 3).filter.isSome = true ∧ (s.sense 3).fault = true ∧ (s.power 3).pen = true
      ∧ (s.entry 3).held ≠ 0 ∧ s.poolQuiet 3 ∧ s.busConsistent ∧ s.noSync ∧ (s.entry 3).faults < 2
      ∧ last.ready ∧ (last.entry 3).faults = 2 := by decide +kernel

theorem witness_FaultInputIsFilteredAndTaken_quietly :
    (faulty (plain .clearing)).ready ∧ ((faulty (plain .clearing)).sense 3).filter.isSome = true
      ∧ ((faulty (plain .clearing)).power 3).pen = false
      ∧ (port3 (powered 1)).ready ∧ ((port3 (powered 1)).sense 3).fault ≠ true := by decide +kernel

theorem witness_RestAndCooldownResense :
    let c := port3 { plain .clearing with clearRest := some 0 }
    let f := port3 { plain .faulted with cooldown := some 0 }
    c.ready ∧ (c.entry 3).state = .clearing ∧ (c.entry 3).clearRest.isSome = true
      ∧ f.ready ∧ (f.entry 3).state = .faulted ∧ (f.entry 3).cooldown.isSome = true ∧ (f.sense 3).sampled = false
      ∧ (sense3 f fun u => { u with sampled := true }).ready := by decide +kernel

/-- An entry in POWERING at the floor of class 1. -/
def starting : Entry := { plain .powering with cls := .one, floor := 4, held := 4, policy := (powered 0).policy }

theorem witness_RaisingWriteIsMade :
    let s := onBus (port3 starting) { value := 4, dir := .raise } false
    (port3 starting).ready ∧ (port3 starting).psi.transfer = none
      ∧ s.ready ∧ s.psi.transfer = some { port := 3, write := { value := 4, dir := .raise }, void := false, left := 0 }
      ∧ s.busConsistent ∧ (s.entry 3).state = .powering ∧ (s.sense 3).sampled = false
      ∧ (onBus (port3 starting) { value := 0, dir := .teardown } true).ready := by decide +kernel

theorem witness_RaisingWriteIsMade_faulted :
    let s := sense3 (onBus (port3 starting) { value := 4, dir := .raise } false) fun u => { u with sampled := true }
    s.ready ∧ s.busConsistent ∧ (s.entry 3).state = .powering ∧ (s.sense 3).sampled = true ∧ (s.entry 3).held ≠ 0
      ∧ (s.entry 3).faults ≤ 2 ∧ s.poolQuiet 3 ∧ s.noSync
      ∧ ({ starting with faults := 2 } : Entry).faults = 2 := by decide +kernel

theorem witness_LoweringWriteIsMade :
    let s := onBus (port3 { cutting 1 with lowering := some (.conclude 1 true) }) { value := 30, dir := .lower } false
    s.ready ∧ s.busConsistent ∧ s.noSync
      ∧ s.psi.transfer = some { port := 3, write := { value := 30, dir := .lower }, void := false, left := 0 }
      ∧ s.pool.waitList = [] ∧ s.pool.effective = s.pool.target ∧ s.pool.committed ≤ s.pool.target
      ∧ (s.entry 3).waiting = [] ∧ (s.entry 3).lowering = some (.conclude 1 true)
      ∧ (s.entry 3).unitsOf 1 ≤ (s.entry 3).held := by decide +kernel

theorem witness_LoweringWriteIsMade_release :
    let s := onBus (port3 { powered 0 with held := 60, lowering := some .release }) { value := 4, dir := .lower } false
    s.ready ∧ s.busConsistent ∧ (s.entry 3).waiting = [] ∧ (s.entry 3).lowering = some .release
      ∧ (s.entry 3).unitsOf (s.entry 3).tier ≤ (s.entry 3).held := by decide +kernel

theorem witness_LoweringWriteIsMade_drop :
    let payload : List Byte := le32 7 ++ [2] ++ le16 5 ++ le16 400
    let s := onBus (port3 { powered 0 with held := 60, lowering := some (.drop payload) }) { value := 4, dir := .lower } false
    s.ready ∧ s.busConsistent ∧ s.noSync ∧ s.pool.waitList = [] ∧ (s.entry 3).waiting = [] ∧ (s.entry 3).tier = 0
      ∧ (s.entry 3).lowering = some (.drop payload) ∧ (s.entry 3).floor ≤ (s.entry 3).held ∧ (s.tle 3).waits .offer = false
      ∧ payload = le32 (7#32).toNat ++ [byteOf [5, 400].length] ++ [5, 400].flatMap le16
      ∧ ((s.entry 3).floor :: [5, 400]).Pairwise (· < ·)
      ∧ ([7, 0, 0, 0, 3, 5, 0] : List Byte).length ≠ 5 + 2 * (byteAt [7, 0, 0, 0, 3, 5, 0] 4).toNat := by decide +kernel

theorem witness_LoweringWriteIsMade_admits :
    let e := { powered 1 with held := 60, lowering := some .release }
    let s := waits (starved6 (onBus (port3 e) { value := 30, dir := .lower } false)) 60 [floorOf 6 4 0]
    s.ready ∧ s.busConsistent ∧ s.noSync ∧ s.pool.effective = s.pool.target ∧ s.pool.committed ≤ s.pool.target
      ∧ (s.entry 3).waiting = [] ∧ (s.entry 3).lowering = some .release ∧ s.pool.waitList = [floorOf 6 4 0]
      ∧ (s.entry 6).state = .starved ∧ (s.entry 3).unitsOf (s.entry 3).tier ≤ (s.entry 3).held
      ∧ s.pool.committed - ((s.entry 3).held - (s.entry 3).unitsOf 1) + 4 ≤ s.pool.target := by decide +kernel

/-- Port 3 lowered to tier 1 by a release, with events that wait. -/
def busy (l : List Waiting) : State :=
  onBus (port3 { powered 1 with held := 60, lowering := some .release, waiting := l }) { value := 30, dir := .lower } false

theorem witness_LoweringWriteIsMade_waiting :
    let n := busy [.frame .note [1], .frame .note [2]]
    let c := onBus (port3 { cutting 1 with lowering := some (.conclude 1 true), waiting := [.frame .note [1], .frame .note [2]] })
      { value := 30, dir := .lower } false
    let r := busy [.revoke 0 8 0 100]
    let l := busy [.frame .release [0], .frame .note [1]]
    n.ready ∧ n.busConsistent ∧ n.noSync ∧ n.pool.waitList = [] ∧ n.pool.committed ≤ n.pool.target
      ∧ n.pool.effective = n.pool.target ∧ (n.entry 3).module.isSome = true
      ∧ (n.entry 3).unitsOf (n.entry 3).tier ≤ (n.entry 3).held
      ∧ c.ready ∧ c.busConsistent ∧ (c.entry 3).unitsOf 1 ≤ (c.entry 3).held ∧ c.qe.slots = []
      ∧ r.ready ∧ (r.entry 3).state = .powered ∧ (r.entry 3).claim = none ∧ 0 < (r.entry 3).tier
      ∧ (r.tle 3).waits .cut = false ∧ l.ready ∧ (0#8).toNat < (l.entry 3).tier := by
  dsimp only; and_intros <;> decide +kernel

/-- Port 3 whose settle has run out. -/
def settling (e : Entry) : State := (port3 e).modPower 3 fun x => { x with settle := some 0 }

theorem witness_SettledReportIsTaken :
    (port3 (powered 1)).ready ∧ ((port3 (powered 1)).power 3).settle = none
      ∧ (settling starting).ready ∧ ((settling starting).power 3).settle.isSome = true
      ∧ ((settling starting).entry 3).state = .powering
      ∧ (settling starting).pool.effective = (settling starting).pool.target := by decide +kernel

theorem witness_SettledReportIsTaken_shrinking :
    let s := ((settling starting).modEntry 6 fun _ => cutting 0).modPool fun b =>
      { b with target := 8, effective := 64, committed := 64 }
    s.ready ∧ (s.entry 3).state = .powering ∧ s.pool.effective ≠ s.pool.target
      ∧ s.pool.committed ≤ s.pool.target + (allPorts.map fun q =>
          if (s.entry q).state = .cutting then
            (s.entry q).held - ((s.entry q).cut.elim (s.entry q).held fun c => c.targetUnits)
          else 0).sum := by decide +kernel

theorem witness_SettledReportIsTaken_grant :
    let s := settling (claiming .granting)
    s.ready ∧ (s.entry 3).state = .claiming ∧ ((s.entry 3).claim.any fun c => c.phase = .granting) = true
      ∧ (s.entry 3).claim.isSome = true
      ∧ ((s.tle 3).queue.filter fun x => x.frame.kind = .grant || x.frame.kind = .deny).length < 2
      ∧ (settling (powered 1)).ready ∧ ((settling (powered 1)).entry 3).state = .powered := by decide +kernel

/-! ### Hypotheses that are met: frames -/

/-- An OFFER item and an ACK item. -/
def offerItem : TxItem := { frame := .offer 1 30, collisions := 0 }
def ackItem : TxItem := { frame := .ack 4, collisions := 0 }

/-- A GRANT and a DENY item that wait. -/
def grantItem : TxItem := { frame := .grant 1 30 30 8, collisions := 0 }
def denyItem : TxItem := { frame := .deny 2 .busy 6, collisions := 1 }

theorem witness_SettledReportIsTaken_third_answer :
    let s := tle3 (settling (claiming .granting)) fun t => { t with queue := [grantItem, denyItem, offerItem] }
    s.ready ∧ (s.tle 3).boundReached grantItem.frame ∧ (s.tle 3).queue = [grantItem] ++ denyItem :: [offerItem]
      ∧ sameBound grantItem.frame denyItem.frame = true ∧ sameBound grantItem.frame offerItem.frame = false
      ∧ (s.entry 3).state = .claiming ∧ ((s.entry 3).claim.any fun c => c.phase = .granting) = true := by decide +kernel

/-- R72: a third answer takes the place of the DENY that was queued last, with a protocol error. -/
theorem test_third_answer :
    let s := tle3 (settling (claiming .granting)) fun t => { t with queue := [grantItem, denyItem, offerItem] }
    let t := after (.settled 3) s
    (t.tle 3).queue = [grantItem, { frame := .grant 2 60 30 9, collisions := 0 }, offerItem]
      ∧ (t.tle 3).counters.protocolErrors = 1 := by decide +kernel

/-- Port 3 in POWERED with its engine changed. -/
def link (f : Tle → Tle) : State := tle3 (port3 (powered 1)) f

theorem witness_FramesAreSent :
    let s := link fun t => { t with queue := [ackItem, offerItem] }
    let r := link fun t => { t with queue := [offerItem], awaiting := some ⟨offerItem, 2⟩, retransmit := true }
    s.ready ∧ (s.tle 3).test = none ∧ (s.tle 3).receiving = false ∧ (s.tle 3).receiver = true ∧ (s.tle 3).line = none
      ∧ (s.tle 3).ignoring = false ∧ (s.tle 3).tapLow = false ∧ (s.tle 3).queue = [ackItem, offerItem]
      ∧ ackItem.frame.kind = .ack
      ∧ (s.tle 3).guard = 200 ∧ ((link fun t => { t with guard := 199 }).tle 3).guard ≠ 200
      ∧ (r.tle 3).guard = 200 ∧ r.ready ∧ (r.tle 3).awaiting = some ⟨offerItem, 2⟩ ∧ (r.tle 3).retransmit = true
      ∧ ((r.tle 3).queue.head?.all fun x => x.frame.kind != .ack) = true := by decide +kernel

theorem witness_FramesAreSent_bounds :
    let s := link fun t => { t with queue := [ackItem, offerItem, denyItem] }
    s.ready ∧ (s.tle 3).boundReached (.offer 2 10) ∧ (s.tle 3).queue = [ackItem] ++ offerItem :: [denyItem]
      ∧ sameBound (.offer 2 10) denyItem.frame = false ∧ ¬ (s.tle 3).boundReached grantItem.frame
      ∧ ¬ (s.tle 3).boundReached (.cut 0 20) ∧ (s.tle 3).queue = [] ++ ackItem :: [offerItem, denyItem]
      ∧ ackItem.frame.kind = .ack ∧ (s.tle 3).waits .ack = true ∧ ((link id).tle 3).waits .ack = false := by decide +kernel

/-- R72: an OFFER and an ACK that wait are replaced where they stand. -/
theorem test_replaced_in_place :
    let s := link fun t => { t with queue := [ackItem, offerItem, denyItem] }
    ((s.queueFrame 3 (.offer 2 10)).tle 3).queue = [ackItem, { frame := .offer 2 10, collisions := 0 }, denyItem]
      ∧ ((s.tle 3).oweAck 7).queue = [{ frame := .ack 7, collisions := 0 }, offerItem, denyItem]
      ∧ ((s.queueFrame 3 (.offer 2 10)).tle 3).counters.protocolErrors = 0 := by decide +kernel

theorem witness_FramesAreSent_tests :
    let w := tle3 (port3 (plain .off)) fun t => { t with test := some (someTest .external .waiting) }
    let b := tle3 (port3 (plain .off)) fun t => { t with test := some (someTest .internal (.sending 0)) }
    w.ready ∧ (w.tle 3).test = some (someTest .external .waiting) ∧ (w.tle 3).line = none ∧ (w.tle 3).tapLow = false
      ∧ (w.tle 3).receiving = false ∧ (w.tle 3).guard = 200 ∧ b.ready ∧ (b.tle 3).test = some (someTest .internal (.sending 0))
      ∧ (link fun t => { t with line := some (.frame ackItem 0 false 0) }).ready
      ∧ (link fun t => { t with line := some (.frame offerItem 0 true 0) }).ready := by decide +kernel

theorem witness_FramesAreSent_under_a_low :
    let s := link fun t => { t with line := some (.frame offerItem 0 false 1), tapLow := true }
    s.ready ∧ (s.tle 3).line = some (.frame offerItem 0 false 1) ∧ (s.tle 3).tapLow = true ∧ (1 : Nat) ≠ 0 := by
  decide +kernel

theorem witness_CollisionAbandonsTheFrame :
    let s := link fun t => { t with line := some (.frame { offerItem with collisions := 6 } 0 false 101) }
    let last := link fun t => { t with line := some (.frame { offerItem with collisions := 7 } 0 false 101) }
    s.ready ∧ (s.tle 3).line = some (.frame { offerItem with collisions := 6 } 0 false 101)
      ∧ last.ready ∧ (last.tle 3).line = some (.frame { offerItem with collisions := 7 } 0 false 101)
      ∧ (s.tle 3).compares = true ∧ ((link fun t => { t with line := some (.frame offerItem 0 false 100) }).tle 3).compares = false
      ∧ last.poolQuiet 3 ∧ last.busConsistent ∧ last.offWithoutPen 3 ∧ last.noSync := by decide +kernel

theorem witness_CollisionAbandonsTheFrame_kinds :
    let again := link fun t => { t with line := some (.frame offerItem 2 true 101), awaiting := some ⟨offerItem, 2⟩, retransmit := true }
    let ack := link fun t => { t with line := some (.frame ackItem 0 false 101), queue := [ackItem] }
    let newer := link fun t => { t with line := some (.frame offerItem 0 false 101), queue := [ackItem, offerItem] }
    again.ready ∧ (again.tle 3).line = some (.frame offerItem 2 true 101) ∧ offerItem.collisions < 7
      ∧ ack.ready ∧ (ack.tle 3).line = some (.frame ackItem 0 false 101) ∧ ackItem.frame.kind = .ack
      ∧ (ack.tle 3).waits .ack = true ∧ newer.ready ∧ (newer.tle 3).line = some (.frame offerItem 0 false 101)
      ∧ offerItem.frame.kind ≠ .ack ∧ (newer.tle 3).queue = [ackItem, offerItem] := by decide +kernel

/-- R71, R77: an abandoned ACK with none waiting goes to the front, an abandoned OFFER behind an ACK. -/
theorem test_collision_returns :
    let a := after (.collision 3) (link fun t => { t with line := some (.frame ackItem 0 false 101), queue := [offerItem] })
    let o := after (.collision 3) (link fun t => { t with line := some (.frame offerItem 0 false 101), queue := [ackItem] })
    (a.tle 3).queue = [{ ackItem with collisions := 1 }, offerItem]
      ∧ (o.tle 3).queue = [ackItem, { offerItem with collisions := 1 }] := by decide +kernel

/-- R76: a one is compared from 3 us on, a zero from 7 us on, and a start never. -/
theorem test_comparison :
    comparedAt [.one] 2 = false ∧ comparedAt [.one] 3 = true ∧ comparedAt [.zero] 6 = false ∧ comparedAt [.zero] 7 = true
      ∧ comparedAt [.start] 9 = false ∧ comparedAt [.one] 10 = false := by decide

/-- R76, R77: a line held low under an own frame brings its collision, at the first moment of comparison. -/
theorem test_held_low_departs :
    let s := link fun t => { t with line := some (.frame offerItem 0 false 717), tapLow := true }
    s.due = [.collision 3] ∧ (after (.frameSent 3) s).tle 3 = s.tle 3
      ∧ (s.modTle 3 fun t => { t with line := some (.frame offerItem 0 false 718) }).due = [] := by decide +kernel

/-- Port 3 awaiting an acknowledgment after this many retries. -/
def awaitingAck (n : Nat) : State :=
  link fun t => { t with awaiting := some ⟨offerItem, 2⟩, window := some 0, retries := n }

theorem witness_AckWindowRetriesOrLoses :
    (awaitingAck 1).ready ∧ ((awaitingAck 1).tle 3).window.isSome = true ∧ ((awaitingAck 1).tle 3).receiving = false
      ∧ ((awaitingAck 1).tle 3).awaiting = some ⟨offerItem, 2⟩
      ∧ ((awaitingAck 1).tle 3).retries < ((awaitingAck 1).entry 3).policy.retryLimit
      ∧ (awaitingAck 2).ready ∧ ((awaitingAck 2).entry 3).policy.retryLimit ≤ ((awaitingAck 2).tle 3).retries
      ∧ (awaitingAck 2).poolQuiet 3 ∧ (awaitingAck 2).busConsistent ∧ (awaitingAck 2).offWithoutPen 3
      ∧ (awaitingAck 2).noSync := by decide +kernel

theorem witness_AckWindowRetriesOrLoses_receiving :
    let s := tle3 (awaitingAck 1) fun t => { t with receiving := true }
    s.ready ∧ (s.tle 3).receiving = true ∧ (s.tle 3).test = none ∧ (s.tle 3).window = some 0
      ∧ (s.tle 3).awaiting.isSome = true ∧ (link id).ready ∧ ((link id).tle 3).window = none := by decide +kernel

/-- Port 3 with an entry, collecting a reception. -/
def hearing (e : Entry) : State := tle3 (port3 e) fun t => { t with receiving := true }

theorem witness_ReceptionsAreCheckedFirst :
    let s := tle3 (hearing (powered 1)) fun t => { t with lastRx := some (4, .renew) }
    s.collects 3 ∧ (match readReception [0x90] with
      | .broken _ => true
      | .badCrc _ => true
      | _ => false) = true
      ∧ 19 ≤ (byteAt [0x90, 19] 1).toNat ∧ FrameKind.accepted .claim 3 = false ∧ FrameKind.accepted .renew 2 = true
      ∧ (s.tle 3).lastRx = some (4, .renew) ∧ (s.tle 3).waits .ack = false
      ∧ ((s.tle 3).awaiting.all fun a => a.seq != 2) = true ∧ (0x5#4).toNat ∈ unknownKinds ∧ (0xF#4).toNat ∈ unknownKinds := by
  decide +kernel

theorem witness_ReceptionsAreCheckedFirst_again :
    let s := tle3 (hearing (powered 1)) fun t => { t with lastRx := some (4, .renew), queue := [ackItem, offerItem] }
    s.collects 3 ∧ (s.tle 3).lastRx = some (4, .renew) ∧ FrameKind.accepted .renew 2 = true
      ∧ (s.tle 3).queue = [] ++ ackItem :: [offerItem] ∧ ackItem.frame.kind = .ack
      ∧ ([offerItem].all fun y => y.frame.kind != .ack) = true := by decide +kernel

/-- R68: kind code 0x5 with a good CRC is malformed and owes no ACK. -/
theorem test_unknown_kind :
    let t := after (.frameReceived 3 (codedFrame 0x5 1 [7])) (hearing (powered 1))
    (t.tle 3).counters.malformed = 1 ∧ (t.tle 3).counters.crcErrors = 0 ∧ (t.tle 3).queue = [] := by decide +kernel

/-- Port 3 in GRANTING with its GRANT awaiting acknowledgment. -/
def granted : State :=
  tle3 (hearing (claiming .granting)) fun t =>
    { t with awaiting := some ⟨{ frame := .grant 2 60 30 9, collisions := 0 }, 2⟩, window := some 2000 }

theorem witness_ReceptionsAreCheckedFirst_acked :
    let s := tle3 (hearing (powered 1)) fun t => { t with awaiting := some ⟨offerItem, 2⟩, window := some 1 }
    s.collects 3 ∧ (s.tle 3).awaiting = some ⟨offerItem, 2⟩ ∧ offerItem.frame.kind ≠ .grant
      ∧ granted.collects 3 ∧ (granted.entry 3).claim.isSome = true ∧ (granted.entry 3).state = .claiming
      ∧ (granted.entry 3).deferredCeiling = false ∧ (granted.entry 3).deferredAnnounce = none
      ∧ granted.pool.waitList = [] ∧ granted.pool.effective = granted.pool.target
      ∧ granted.pool.committed ≤ granted.pool.target ∧ granted.pool.arrival < 4294967295 := by decide +kernel

/-- The grant of `granted` with its ceiling lowered to tier 1's units meanwhile, and an announcement deferred. -/
def capped (announced : Option (List Byte)) : State :=
  granted.modEntry 3 fun e =>
    { e with policy := { e.policy with ceiling := 59 }, deferredCeiling := true, deferredAnnounce := announced }

theorem witness_ReceptionsAreCheckedFirst_deferred :
    let s := capped none
    let a := capped (some [7, 0, 0, 0, 1, 50, 0])
    s.collects 3 ∧ (s.entry 3).deferredCeiling = true ∧ (s.entry 3).policy.ceiling < (s.entry 3).unitsOf 2
      ∧ (twoTiers.tiers.filter fun u => u ≤ 59).length < 2 ∧ (s.tle 3).waits .cut = false
      ∧ ((s.entry 3).claim.any fun c => c.standsOn = 2 && c.grantLength.isSome) = true
      ∧ a.collects 3 ∧ (a.entry 3).deferredAnnounce.isSome = true ∧ a.busConsistent ∧ (a.entry 3).waiting = []
      ∧ a.qe.slots = [] ∧ (a.entry 3).cut = none ∧ granted.busConsistent ∧ (granted.entry 3).cut = none := by decide +kernel

/-- R123: the lease starts at 60 BU and is cut to the 30 BU within the ceiling. -/
theorem test_deferred_ceiling :
    let t := after (.frameReceived 3 (frameBytes .ack 2 [])) (capped none)
    (t.entry 3).state = .cutting ∧ (t.entry 3).tier = 2
      ∧ ((t.entry 3).cut.any fun c => c.target = 1 && c.cause = .ceiling) = true ∧ (t.entry 3).deferredCeiling = false := by
  decide +kernel

theorem witness_ClaimIsJudged :
    let s := hearing (powered 1)
    s.hears 3 1 .claim ∧ (s.entry 3).lowering = none ∧ (s.entry 3).state = .powered
      ∧ ¬ ((2#8).toNat = 0 ∨ (s.entry 3).tierCount < (2#8).toNat ∨ (2#8).toNat ≤ (s.entry 3).tier)
      ∧ (s.entry 3).tierCount < (3#8).toNat ∧ (1#8).toNat ≤ (s.entry 3).tier
      ∧ (s.entry 3).unitsOf 2 ≤ (s.entry 3).policy.ceiling ∧ (s.entry 3).policy.autoGrant = false
      ∧ (s.tle 3).answerRoom := by decide +kernel

theorem witness_ClaimIsJudged_denied :
    (hearing { powered 0 with module := none }).hears 3 1 .claim ∧ (hearing (cutting 1)).hears 3 1 .claim
      ∧ (hearing (claiming .granting)).hears 3 1 .claim
      ∧ (hearing { powered 1 with policy := { (powered 1).policy with ceiling := 59 } }).hears 3 1 .claim
      ∧ ((tle3 (hearing (claiming .granting)) fun t =>
          { t with queue := [⟨.deny 1 .busy 0, 0⟩] }).tle 3).queue.any (fun x => x.frame.isBusy) = true := by
  and_intros <;> decide +kernel

theorem witness_ClaimIsJudged_auto :
    let s := (hearing { powered 1 with policy := { (powered 1).policy with autoGrant := true, ceiling := 60 } }).modPool
      fun b => { b with target := 60, effective := 60 }
    s.hears 3 1 .claim ∧ (s.entry 3).policy.autoGrant = true ∧ s.busConsistent ∧ s.pool.waitList = []
      ∧ s.pool.effective = s.pool.target ∧ s.pool.arrival < 4294967295
      ∧ (s.entry 3).unitsOf 2 ≤ (s.entry 3).policy.ceiling ∧ (s.entry 3).held ≤ (s.entry 3).unitsOf 2
      ∧ s.pool.committed + ((s.entry 3).unitsOf 2 - (s.entry 3).held) ≤ s.pool.target := by decide +kernel

/-- Port 3's policy grants by itself, port 6 is leased at tier 2, and 59 BU are there for the two. -/
def autoContested (waitLimit : Nat) (preemption : Bool) : State :=
  ((hearing
      { powered 1 with
        policy := { (powered 1).policy with autoGrant := true, priority := 1, waitLimit := waitLimit } }).modEntry 6 fun _ =>
    powered 2).modPool fun b =>
      { b with
        target := 119, effective := 119, committed := 90, preemption := preemption
        grantOrder := b.grantOrder.set 6 (some 1) }

theorem witness_ClaimIsJudged_waits :
    let s := autoContested 20 true
    s.hears 3 1 .claim ∧ (s.entry 3).policy.autoGrant = true ∧ s.pool.waitList = [] ∧ s.pool.effective = s.pool.target
      ∧ s.pool.committed ≤ s.pool.target ∧ s.pool.arrival < 4294967295 ∧ (s.entry 3).lowering = none
      ∧ (s.entry 3).unitsOf 2 ≤ (s.entry 3).policy.ceiling
      ∧ s.pool.target < s.pool.committed + ((s.entry 3).unitsOf 2 - (s.entry 3).held)
      ∧ (s.entry 3).policy.waitLimit ≠ 0 ∧ (∀ q : PortNo, (s.tle q).waits .cut = false)
      ∧ (s.entry 6).state = .powered ∧ (s.entry 6).policy.preemptible = true
      ∧ (s.entry 3).policy.priority < (s.entry 6).policy.priority
      ∧ (autoContested 20 false).hears 3 1 .claim ∧ (autoContested 20 false).pool.preemption = false
      ∧ (autoContested 0 true).hears 3 1 .claim ∧ ((autoContested 0 true).entry 3).policy.waitLimit = 0
      ∧ ((autoContested 0 true).tle 3).answerRoom := by dsimp only; and_intros <;> decide +kernel

/-- R95, R35, R36: the claim waits and cuts port 6, or at a wait limit of 0 is denied. -/
theorem test_auto_grant_waits :
    let c := Instr.frameReceived 3 (frameBytes .claim 1 [2, 9])
    let t := after c (autoContested 20 true)
    let d := after c (autoContested 0 true)
    (t.entry 6).state = .cutting ∧ ((t.entry 3).claim.any fun x => x.phase = .awaitBudget) = true
      ∧ (d.entry 3).state = .powered ∧ d.qe.backlog = [.notice 3 (.claimDenied 1 .noBudget)] ∧ (d.entry 6).state = .powered := by
  decide +kernel

theorem witness_RenewRestartsOrStrikes :
    let s := hearing { powered 1 with strikes := 2 }
    s.hears 3 1 .renew ∧ (s.entry 3).lowering = none ∧ s.applied 3 = 30
      ∧ decide (400 < (33#16).toNat ∨ s.applied 3 + max 2 (s.applied 3 / 8) < (33#16).toNat) = false
      ∧ decide (400 < (34#16).toNat ∨ s.applied 3 + max 2 (s.applied 3 / 8) < (34#16).toNat) = true
      ∧ (s.entry 3).strikes = 2 ∧ s.poolQuiet 3 ∧ s.busConsistent ∧ s.offWithoutPen 3 ∧ s.noSync := by decide +kernel

theorem witness_ReleaseAndDoneLower :
    let s := hearing (powered 2)
    let c := hearing (cutting 1)
    let w := hearing (claiming .awaitHost)
    s.hears 3 1 .release ∧ s.busConsistent ∧ (s.entry 3).state = .powered ∧ (1#8).toNat < (s.entry 3).tier
      ∧ (s.entry 3).tier ≤ (2#8).toNat ∧ (s.entry 3).cut = none ∧ s.hears 3 1 .done
      ∧ c.hears 3 1 .done ∧ c.busConsistent ∧ (c.entry 3).cut = (cutting 1).cut ∧ c.hears 3 1 .release
      ∧ w.hears 3 1 .release ∧ (w.entry 3).claim = some waitingClaim ∧ (0#8).toNat < (w.entry 3).tier := by
  dsimp only; and_intros <;> decide +kernel

theorem witness_ReleaseAndDoneLower_targets :
    ((cutting 1).cut.any fun r => decide ((1#8).toNat ≤ r.target)) = true
      ∧ ((cutting 1).cut.any fun r => decide (r.target < (2#8).toNat)) = true ∧ (cutting 1).tier ≤ (2#8).toNat
      ∧ ((cutting 0).cut.any fun r => decide (r.target < (1#8).toNat)) = true ∧ (1#8).toNat < (cutting 0).tier
      ∧ (hearing (cutting 0)).hears 3 1 .release ∧ (hearing (claiming .granting)).hears 3 1 .release := by decide +kernel

/-- Port 3 in AWAIT_BUDGET with its TIER entry. -/
def queued : State :=
  waits (hearing (claiming .awaitBudget)) 40 [{ port := 3, kind := .tier, need := 30, priority := 3, arrival := 0 }]

theorem witness_ReleaseAndDoneLower_waiting :
    let h := hearing (claiming .awaitHost)
    queued.hears 3 1 .release ∧ queued.busConsistent ∧ (queued.entry 3).state = .claiming
      ∧ ((queued.entry 3).claim.any fun x => decide (x.phase = .awaitBudget)) = true ∧ queued.poolQuiet 3
      ∧ (0#8).toNat < (queued.entry 3).tier ∧ (queued.entry 3).tier ≤ (1#8).toNat
      ∧ h.hears 3 1 .release ∧ h.poolQuiet 3 ∧ waitingClaim.phase ≠ .granting ∧ (h.entry 3).tier ≤ (1#8).toNat := by
  dsimp only; and_intros <;> decide +kernel

/-- The payload of an announcement of two tiers. -/
def announced (a b : Nat) : List Byte := le32 7 ++ [2] ++ le16 a ++ le16 b

theorem witness_AnnounceIsTaken :
    let s := hearing (powered 0)
    s.hears 3 1 .announce ∧ (s.entry 3).lowering = none ∧ (s.tle 3).waits .offer = false
      ∧ FrameKind.accepted .announce (announced 5 400).length = true ∧ (s.entry 3).state = .powered
      ∧ (s.entry 3).tier = 0
      ∧ announced 5 400 = le32 (7#32).toNat ++ [byteOf [5, 400].length] ++ [5, 400].flatMap le16
      ∧ ((s.entry 3).floor :: [5, 400]).Pairwise (· < ·) ∧ ([5, 400].all fun u => u ≤ 400) = true
      ∧ ¬ (((s.entry 3).floor :: [4, 400]).Pairwise (· < ·) ∧ ([4, 400].all fun u => u ≤ 400) = true) := by
  decide +kernel

theorem witness_AnnounceIsTaken_dropping :
    let p := hearing (powered 1)
    let c := hearing (cutting 1)
    p.hears 3 1 .announce ∧ (p.entry 3).tier ≠ 0 ∧ p.busConsistent
      ∧ c.hears 3 1 .announce ∧ (c.entry 3).tier ≠ 0 ∧ (c.entry 3).waiting = [] ∧ c.busConsistent ∧ c.noSync
      ∧ c.pool.waitList = [] ∧ c.pool.effective = c.pool.target ∧ c.pool.committed ≤ c.pool.target
      ∧ (hearing (claiming .granting)).hears 3 1 .announce
      ∧ (p.entry 3).cut = none ∧ (announced 5 400).length ≠ 5 + 2 * (byteAt (le32 7 ++ [3] ++ le16 5 ++ le16 400) 4).toNat := by
  dsimp only; and_intros <;> decide +kernel

theorem witness_AnnounceIsTaken_withdrawing :
    let h := hearing (claiming .awaitHost)
    h.hears 3 1 .announce ∧ (h.entry 3).claim = some waitingClaim ∧ (h.entry 3).cut = none ∧ (h.entry 3).tier ≠ 0
      ∧ h.poolQuiet 3 ∧ h.busConsistent ∧ queued.hears 3 1 .announce ∧ (queued.entry 3).claim.isSome = true
      ∧ (queued.entry 3).cut = none ∧ (queued.entry 3).tier ≠ 0 := by decide +kernel

theorem witness_AnnounceIsTaken_at_floor :
    let h := hearing floorClaim
    h.hears 3 1 .announce ∧ (h.tle 3).waits .offer = false ∧ (h.entry 3).state = .claiming
      ∧ (h.entry 3).claim = some waitingClaim ∧ waitingClaim.phase ≠ .granting ∧ (h.entry 3).tier = 0 ∧ h.poolQuiet 3 := by
  decide +kernel

/-- R88, R90: the claim is withdrawn and the announcement completes in the same event. -/
theorem test_announce_withdraws_floor_claim :
    let t := after (.frameReceived 3 (frameBytes .announce 1 (announced 5 400))) (hearing floorClaim)
    (t.entry 3).state = .powered ∧ (t.entry 3).claim = none ∧ (t.entry 3).module = some { id := 7, tiers := [5, 400] }
      ∧ t.qe.backlog = [.notice 3 (.claimDenied 5 .busy), .notice 3 (.announced 7 1 [5, 400])] := by decide +kernel

theorem witness_NotesAndWaitingFrames :
    let s := hearing { powered 1 with lowering := some .release }
    s.hears 3 1 .note ∧ FrameKind.accepted .note 16 = true ∧ (s.entry 3).lowering.isSome = true
      ∧ (hearing (powered 1)).hears 3 1 .note ∧ ((hearing (powered 1)).entry 3).module.isSome = true
      ∧ (hearing { powered 0 with module := none }).hears 3 1 .note := by decide +kernel

theorem witness_LineClearsAreSentAndReceived :
    let s := withClear (opened .lineClear 0x07 (port3 (plain .clearing))) (some 0)
    let low := tle3 (port3 (powered 1)) fun t => { t with tapLow := true, lowLeft := some 0 }
    s.ready ∧ (s.tle 3).line = some (.clear (some 0) 10) ∧ s.noSync
      ∧ (withClear (port3 (plain .clearing)) none).ready
      ∧ low.ready ∧ (low.tle 3).detector = true ∧ (low.tle 3).lowLeft.isSome = true ∧ low.poolQuiet 3
      ∧ low.busConsistent ∧ low.offWithoutPen 3 ∧ low.noSync ∧ (low.tle 3).tapLow ≠ false := by decide +kernel

theorem witness_LineClearsAreSentAndReceived_resting :
    let s := tle3 (port3 (plain .clearing)) fun t => { t with detector := true, tapLow := true, lowLeft := some 0 }
    s.ready ∧ (s.tle 3).detector = true ∧ (s.tle 3).lowLeft.isSome = true ∧ (s.entry 3).state = .clearing ∧ s.noSync
      ∧ (port3 (powered 1)).ready ∧ ((port3 (powered 1)).tle 3).lowLeft = none := by decide +kernel

theorem witness_LineClearsAreSentAndReceived_pin :
    (link id).ready ∧ ((link id).tle 3).line = none ∧ ((link id).tle 3).test = none
      ∧ (let s := link fun t => { t with line := some (.frame offerItem 0 false 720) }
         s.ready ∧ (s.tle 3).line = some (.frame offerItem 0 false 720)
           ∧ (frameCells (offerItem.frame.wire 0))[0]? = some .one ∧ 720 = 240 + 80 * (4 + 2) - (10 * 0 + 0)) := by
  dsimp only; and_intros <;> decide +kernel

/-- R62, R63, R82, R176: low for 2 us of a one, all of the start, all of a line clear, and never for an INTERNAL test. -/
theorem test_tap_pin :
    let at_ (us : Nat) := ((link fun t => { t with line := some (.frame offerItem 0 false (720 - us)) }).tle 3).pullsLow
    at_ 1 = true ∧ at_ 2 = false ∧ at_ 200 = true ∧ at_ 239 = true ∧ at_ 245 = true ∧ at_ 246 = false
      ∧ ((withClear (port3 (plain .clearing)) none).tle 3).pullsLow = true
      ∧ ((tle3 (port3 (plain .off)) fun t => { t with test := some (someTest .internal (.sending 800)) }).tle 3).pullsLow
          = false := by decide +kernel

/-! ### Hypotheses that are met: BP, the timers, link tests -/

/-- Port 3 leased at tier 2 and a more urgent floor that waits. -/
def preempting : State :=
  (port3 (powered 2)).modPool fun b =>
    { b with
      target := 60, effective := 60, preemption := true
      waitList := [{ port := 1, kind := .floor, need := 4, priority := 0, arrival := 0 }] }

theorem witness_PreemptionCutsInVictimOrder :
    (preempting.pool.waitList.map fun w => w.port) = [1] ∧ (∀ p : PortNo, (preempting.tle p).waits .cut = false)
      ∧ preempting.pool.preemption = true ∧ preempting.pool.effective ≤ preempting.pool.target
      ∧ preempting.pool.target < preempting.pool.committed + 4 ∧ (preempting.entry 3).policy.preemptible = true
      ∧ 0 < (preempting.entry 3).policy.priority ∧ preempting.pool.orders = [] ∧ preempting.nobodyImpatient := by
  decide +kernel

/-- A GRANT awaits its ACK on port 3, port 6 is leased, and a more urgent floor that does not fit waits. -/
def rival (s : State) : State :=
  (s.modEntry 6 fun _ => powered 2).modPool fun b =>
    { b with
      target := 90, effective := 90, committed := 90, preemption := true, grantOrder := b.grantOrder.set 6 (some 0)
      waitList := [{ port := 1, kind := .floor, need := 4, priority := 0, arrival := 0 }] }

theorem witness_PreemptionCutsInVictimOrder_granted :
    let s := rival granted
    let l := rival (capped none)
    s.collects 3 ∧ l.collects 3 ∧ (s.tle 3).awaiting.isSome = true ∧ (s.entry 3).state = .claiming
      ∧ ((s.entry 3).claim.any fun c => c.standsOn = 2 && c.grantLength.isSome) = true ∧ (s.entry 3).lowering = none
      ∧ (s.entry 3).deferredAnnounce = none ∧ s.nobodyImpatient ∧ s.pool.arrival < 4294967295 ∧ s.pool.orders = []
      ∧ (∀ p : PortNo, (s.tle p).waits .cut = false) ∧ s.pool.effective ≤ s.pool.target
      ∧ s.pool.target < s.pool.committed + 4 ∧ (l.entry 3).deferredCeiling = true
      ∧ (l.entry 3).policy.ceiling < (l.entry 3).unitsOf 2 := by decide +kernel

/-- R33, R104 step 4, R126: the pass of the ACK chooses the port just granted, which R128 puts first. -/
theorem test_preempts_the_granted_port :
    let t := after (.frameReceived 3 (frameBytes .ack 2 [])) (rival granted)
    ((t.entry 3).cut.any fun c => c.target = 0 && c.cause = .preempt) = true ∧ (t.entry 6).state = .powered
      ∧ t.pool.orders = [] := by decide +kernel

/-- R104 step 6, R129: its order meets the deferred ceiling cut and is not taken, and port 6 is not cut instead. -/
theorem test_preempt_order_meets_a_cut :
    let t := after (.frameReceived 3 (frameBytes .ack 2 [])) (rival (capped none))
    ((t.entry 3).cut.any fun c => c.target = 1 && c.cause = .ceiling) = true ∧ (t.entry 6).state = .powered := by
  decide +kernel

/-- A shrink to 1 BU with port 3 in this entry. -/
def shrunk (e : Entry) : State := (port3 e).modPool fun b => { b with target := 1, effective := e.held }

theorem witness_ShrinkCutsThenWithdrawsAFloor :
    let s := shrunk (powered 2)
    (∀ p : PortNo, (s.tle p).waits .cut = false) ∧ s.pool.target < s.pool.effective
      ∧ 0 < (s.pool.committed : Int) - s.pool.target ∧ (s.entry 3).state = .powered ∧ (s.entry 3).tier ≠ 0
      ∧ (s.entry 3).lowering = none ∧ s.pool.orders = [] ∧ s.nobodyImpatient
      ∧ (∀ p : PortNo, (s.entry p).state ≠ .claiming) := by decide +kernel

/-- Port 3's claim waits with tier 1 in force, port 6 is leased at tier 2, and a shrink of 70 BU. -/
def shrinking : State :=
  ((port3 (claiming .awaitHost)).modEntry 6 fun _ => powered 2).modPool fun b =>
    { b with target := 20, effective := 90, committed := 90, grantOrder := b.grantOrder.set 6 (some 1) }

theorem witness_ShrinkCutsThenWithdrawsAFloor_several :
    shrinking.pool.target < shrinking.pool.effective ∧ (∀ p : PortNo, (shrinking.tle p).waits .cut = false)
      ∧ shrinking.pool.orders = [] ∧ shrinking.nobodyImpatient ∧ (shrinking.tle 3).answerRoom
      ∧ shrinking.victims shrinking.shrinkable = [6, 3] ∧ shrinking.shrinkVictims = [6, 3] := by decide +kernel

/-- R136: both are cut, and the claim of the one that waited is first denied. -/
theorem test_shrink_cuts_both :
    let t := after (.setBudget 1 20 0) (shrinking.modPool fun b => { b with target := 90 })
    (t.entry 6).state = .cutting ∧ (t.entry 3).state = .cutting ∧ (t.entry 3).claim = none
      ∧ t.qe.backlog = [.notice 3 (.claimDenied 5 .noBudget)] ∧ t.qe.slots.length = 1 := by decide +kernel

theorem witness_ShrinkCutsThenWithdrawsAFloor_floor :
    let s := shrunk (powered 0)
    s.pool.target < s.pool.effective ∧ 0 < (s.pool.committed : Int) - s.pool.target
      ∧ (∀ p : PortNo, (s.entry p).tier = 0 ∧ (s.entry p).lowering = none ∧ (s.entry p).claim = none)
      ∧ (∀ p : PortNo, (s.entry p).state ≠ .cutting ∧ ((s.entry p).state = .powered ↔ p = 3))
      ∧ s.pool.waitList = [] ∧ s.noSync ∧ s.slotsSound ∧ s.busConsistent ∧ s.offWithoutPen 3
      ∧ s.pool.arrival < 4294967295
      ∧ s.pool.target < s.pool.committed - (s.entry 3).held + (s.entry 3).floor ∧ s.pool.orders = [] := by decide +kernel

theorem witness_ShrinkCutsThenWithdrawsAFloor_awaiting :
    let s := shrunk (claiming .awaitHost)
    s.pool.target < s.pool.effective ∧ 0 < (s.pool.committed : Int) - s.pool.target ∧ (s.entry 3).state = .claiming
      ∧ (s.entry 3).claim = some waitingClaim ∧ (s.entry 3).tier ≠ 0 ∧ (s.entry 3).lowering = none
      ∧ (∀ q : PortNo, (s.entry q).tier ≠ 0 → q = 3) ∧ (s.tle 3).answerRoom ∧ s.pool.orders = []
      ∧ s.nobodyImpatient := by decide +kernel

theorem witness_ShrinkCutsThenWithdrawsAFloor_in_flight :
    let s := shrunk (claiming .granting)
    s.pool.target < s.pool.effective ∧ (s.entry 3).state = .claiming
      ∧ ((s.entry 3).claim.any fun c => decide (c.phase = .granting)) = true
      ∧ (∀ p : PortNo, (s.entry p).state ≠ .powered) := by decide +kernel

theorem witness_RecordTimersRunOut :
    let s := port3 (powered 2)
    let w := port3 (claiming .awaitHost)
    let b := (port3 (claiming .awaitBudget)).modPool fun b =>
      { b with
        waitList := [{ port := 3, kind := .tier, need := 30, priority := 3, arrival := 0 }] }
    s.ready ∧ (s.entry 3).leaseRuns = true ∧ 0 < (s.entry 3).tier ∧ (s.entry 3).claim = none
      ∧ (s.tle 3).waits .cut = false ∧ w.ready ∧ (w.entry 3).claim = some waitingClaim ∧ (w.tle 3).answerRoom
      ∧ w.poolQuiet 3 ∧ (w.pool.waitList.all fun w => w.port != 3) = true
      ∧ b.ready ∧ b.poolQuiet 3 ∧ (b.entry 3).claim.isSome = true := by decide +kernel

theorem witness_RecordTimersRunOut_cuts :
    let c := port3 (cutting 1)
    let l := port3 { cutting 1 with lowering := some .partialRelease }
    c.ready ∧ (c.entry 3).cutRuns = true ∧ (c.entry 3).lowering = none ∧ c.busConsistent ∧ (c.entry 3).leaseRuns = true
      ∧ l.ready ∧ (l.entry 3).lowering.isSome = true ∧ (port3 (cutting 0)).ready
      ∧ ((cutting 0).cut.map fun r => r.target) = some 0 ∧ (port3 (powered 0)).ready
      ∧ ((port3 (powered 0)).entry 3).lease = none ∧ ((port3 (powered 0)).entry 3).cut = none := by
  dsimp only; and_intros <;> decide +kernel

theorem witness_LinkTestEnds :
    let s := tle3 (opened .linkTest 0x0C (port3 (plain .off))) fun t =>
      { t with test := some (someTest .external (.sent 500)), receiving := true }
    s.ready ∧ s.noSync ∧ (s.tle 3).test = some (someTest .external (.sent 500)) ∧ (s.tle 3).receiving = true
      ∧ (s.qe.slots.head?.any fun sl => sl.order == 0) = true ∧ ([1, 2] : List Byte).length ≤ 18
      ∧ (match readReception [0x70, 2, 1] with
        | .broken _ => true
        | .badCrc _ => true
        | _ => false) = true
      ∧ (0xD#4).toNat ∈ unknownKinds ∧ 2 ≤ ([0x70, 19] : List Byte).length ∧ 19 ≤ (byteAt [0x70, 19] 1).toNat
      ∧ ((tle3 s fun t => { t with receiving := false }).tle 3).receiving = false
      ∧ (port3 (plain .off)).ready ∧ ((port3 (plain .off)).tle 3).test = none := by decide +kernel

theorem witness_FrameBytesReadBack :
    FrameKind.accepted .announce 17 = true ∧ (17 : Nat) ≤ 18 ∧ 40 ∉ [2, 6, 39, 41, 2] := by decide

/-! ### The invariants' hypotheses, in a state that works -/

/-- Port 3 at tier 2 with a REVOKE's cut whose deadline is about to run out. -/
def working : State := { opened .revoke 0x06 (port3 (cutting 1)) with pending := [.cutDeadline 3] }

theorem witness_AccountsStayBalanced :
    working.accountsBalance ∧ working.floorsMatch ∧ working.countersBounded ∧ working.busConsistent := by decide +kernel

theorem witness_StepsEndAtRest : working.atRest ∧ working.qe.accessesBegun := by decide +kernel

theorem witness_TableStaysConsistent : working.tableConsistent ∧ working.leasesMatch := by decide +kernel

theorem witness_PowerStaysBacked : working.tableConsistent ∧ working.leasesMatch ∧ working.supplyBacked :=
  ⟨witness_TableStaysConsistent.1, witness_TableStaysConsistent.2, by decide +kernel⟩

theorem witness_WaitListStaysServed : working.waitListSorted ∧ working.tableConsistent ∧ working.headBlocked :=
  ⟨by decide +kernel, witness_TableStaysConsistent.1, by decide +kernel⟩

theorem witness_step_of_working : ∃ t, step working = .next t := ⟨_, rfl⟩

end Sys2Proof.Tests
end

