-- ==== Sys2Proof/Proofs/LeaseTableReset.lean ====
section
/-! The two resets and the lease table: what every block holds after a reset, and that a reset leaves the end of the
event nothing to do, so that RESET# low and SOFT_RESET share one proof. -/

namespace Sys2Proof.Machine

open Sys2Proof

variable (s : State) (q : Qe) (p : PortNo)

/-! ### The blocks after a reset (R1, R45) -/

@[simp] theorem State.resetBlocks_entry : (s.resetBlocks q).entry p = Entry.reset :=
  Vector.getElem_replicate p.isLt

@[simp] theorem State.resetBlocks_power :
    (s.resetBlocks q).power p = { pen := false, applied := 0, pendingWrite := none, settle := none } :=
  Vector.getElem_replicate p.isLt

/-! ### The effect of the two resets -/

/-- A stopped QE begins no ring access. -/
@[simp] theorem Qe.startAccesses_atReset (cmdBase cmdSize rptBase rptSize : Word32) :
    (Qe.atReset cmdBase cmdSize rptBase rptSize).startAccesses = Qe.atReset cmdBase cmdSize rptBase rptSize := by
  simp [Qe.startAccesses, Qe.atReset]

/-- A soft reset leaves BP no order, QE no open command and no ring access to begin, so its event ends as it stands. -/
@[simp] theorem State.finish_softReset : s.softReset.finish = s.softReset := by
  have ends : s.softReset.finish = s.softReset.modQe Qe.startAccesses := State.finish_of_done _ rfl rfl
  rw [ends]
  simp [State.softReset, State.resetBlocks, State.modQe]

theorem exec_softReset_of_high (high : s.resetLow = false) : exec .softReset s = .next s.softReset :=
  calc exec .softReset s
    _ = event s State.softReset := rfl
    _ = .next s.softReset.finish := event_of_high s _ high
    _ = .next s.softReset := by rw [s.finish_softReset]

/-- Either reset returns every block, with QE at reset around some base and size registers; they differ in these
registers and in the level of RESET# alone (R1, R162). -/
theorem exec_reset (c : Instr) (isReset : c = .powerOnReset ∨ c = .softReset ∧ s.resetLow = false) :
    ∃ cmdBase cmdSize rptBase rptSize, exec c s =
      .next { s.resetBlocks (Qe.atReset cmdBase cmdSize rptBase rptSize) with resetLow := decide (c = .powerOnReset) } := by
  obtain rfl | ⟨rfl, high⟩ := isReset
  · exact ⟨0, 0, 0, 0, rfl⟩
  · refine ⟨s.qe.cmdBase, s.qe.cmdSize, s.qe.rptBase, s.qe.rptSize, ?_⟩
    rw [exec_softReset_of_high s high]
    simp [State.softReset, State.resetBlocks, high]

/-- Settles O3: both resets return all blocks (`exec_reset`), and the values of R1, R7 and R45 are those of
`Entry.reset` and of PSI at reset. -/
theorem resetReturnsEveryEntryAndPsi : Obligations.ResetReturnsEveryEntryAndPsi := by
  intro s c isReset
  obtain ⟨cmdBase, cmdSize, rptBase, rptSize, runs⟩ := exec_reset s c isReset
  let qe := Qe.atReset cmdBase cmdSize rptBase rptSize
  exact ⟨_, runs, rfl, rfl, rfl, rfl, s.resetBlocks_entry qe, s.resetBlocks_power qe, rfl, rfl⟩

end Sys2Proof.Machine
end

