-- ==== Sys2Proof/Proofs/HostCommandAnswers.lean ====
section
/-! Host commands that touch one port alone: how a taken command ends where BP has no order and no shrink ends, and the
two ways a command answers at once, from the reserved room (R164, R166) or from a slot of its own (R143, R144).
PORT_ENABLE and RELAY follow, an equation for each outcome of their checks. -/

namespace Sys2Proof.Machine

open Sys2Proof

variable (s : State) (p q : PortNo)

/-! ### The port byte (R145) -/

theorem portOf_of_ge (b : Byte) (h : 8 ≤ b.toNat) : portOf b = none := by
  simp [portOf, h]

@[simp] theorem portOf_byteOf : portOf (byteOf p.val) = some p := by
  have small : p.val % 256 = p.val := Nat.mod_eq_of_lt (by omega)
  simp [portOf, byteOf, small]

/-! ### The end of an event that leaves BP at rest (R133, R140) -/

/-- What BP at rest means is read from the pool and from the open SET_BUDGETs. -/
theorem State.poolAtRest_congr {s t : State} (rest : s.poolAtRest) (pool : t.pool = s.pool)
    (budgets : t.qe.openBudgets = s.qe.openBudgets) : t.poolAtRest := by
  simpa only [State.poolAtRest, pool, budgets] using rest

theorem Qe.find?_setBudget_eq_none (b : Qe) (h : b.openBudgets = 0) :
    (b.slots.find? fun sl => sl.kind == .setBudget) = none := by
  simpa [Qe.openBudgets, List.find?_eq_none] using h

/-- Outside a shrink no SET_BUDGET is open, and within one the end of an event completes none. -/
theorem State.endShrink_of_poolAtRest (rest : s.poolAtRest) : s.endShrink = s := by
  obtain ⟨-, -, noneOpen⟩ := rest
  by_cases within : s.pool.committed ≤ s.pool.target
  · exact s.endShrink_of_none (s.qe.find?_setBudget_eq_none (noneOpen within))
  · simp [State.endShrink, within]

theorem State.finish_of_poolAtRest (rest : s.poolAtRest) : s.finish = s.modQe Qe.startAccesses := by
  rw [State.finish, State.conclude, s.settlePool_of_done rest.1, s.endShrink_of_poolAtRest rest]

/-! ### The ring accesses that begin, against what a statement says of QE (R163, R165) -/

@[simp] theorem Qe.startAccesses_backlog (b : Qe) : b.startAccesses.backlog = b.backlog :=
  (congrArg Qe.backlog b.startAccesses_window :)

@[simp] theorem Qe.startAccesses_slots (b : Qe) : b.startAccesses.slots = b.slots :=
  (congrArg Qe.slots b.startAccesses_window :)

@[simp] theorem Qe.startAccesses_summaries (b : Qe) : b.startAccesses.summaries = b.summaries :=
  (congrArg Qe.summaries b.startAccesses_window :)

theorem State.sameWindow_startAccesses {s t : State} (h : s.sameWindow t) : s.sameWindow (t.modQe Qe.startAccesses) :=
  (congrArg
    (fun b : Qe =>
      { b with
        backlog := s.qe.backlog, slots := s.qe.slots, nextOrder := s.qe.nextOrder, summaries := s.qe.summaries
        fetching := s.qe.fetching, writing := s.qe.writing, lastRead := s.qe.lastRead })
    t.qe.startAccesses_window).trans h

theorem State.onlyAnswers_startAccesses {s t : State} {r : Report} (h : s.onlyAnswers t r) :
    s.onlyAnswers (t.modQe Qe.startAccesses) r := by
  obtain ⟨ports, window, rest, backlog, slots, summaries⟩ := h
  exact ⟨ports, State.sameWindow_startAccesses window, rest, by simpa using backlog, by simpa using slots,
    by simpa using summaries⟩

theorem State.told_startAccesses {s t : State} {reserved : Bool} {ns : List Notice} {rs : List Report} {slots : List Slot}
    (h : s.told t reserved p ns rs slots) : s.told (t.modQe Qe.startAccesses) reserved p ns rs slots := by
  obtain ⟨backlog, summaries, opened, window, rest⟩ := h
  exact ⟨by simpa using backlog, by simpa using summaries, by simpa using opened, State.sameWindow_startAccesses window, rest⟩

/-! ### A command that is taken (R141, R164) -/

theorem Qe.admits_of_room (b : Qe) (code : Byte) (room : b.backlog.length + b.slots.length < 24)
    (slot : mayBeLong code = true → b.slots.length < 8) : b.admits code = true := by
  have admitted : b.load + 1 ≤ Config.backlogSize := room
  have free : mayBeLong code = false ∨ b.slots.length < Config.slotCount := by
    cases long : mayBeLong code
    · exact .inl rfl
    · exact .inr (slot long)
  simpa [Qe.admits, admitted] using free

/-- A command that passes its admission test and leaves BP at rest has its effect, and ring accesses begin. -/
theorem hostCommand_of_takes (code : Byte) (take : State → State) (takes : s.takes)
    (slot : mayBeLong code = true → s.qe.slots.length < 8) (rest : (take s).poolAtRest) :
    hostCommand s code take = .next ((take s).modQe Qe.startAccesses) := by
  obtain ⟨⟨high, -⟩, room⟩ := takes
  rw [hostCommand_of_admits s code take (s.qe.admits_of_room code room slot), event_of_high s take high,
    (take s).finish_of_poolAtRest rest]

/-- A command that only answers leaves BP at rest, so that its event answers and does nothing else. -/
theorem hostCommand_of_onlyAnswers (code : Byte) (take : State → State) (r : Report) (takes : s.takes)
    (slot : mayBeLong code = true → s.qe.slots.length < 8) (answers : s.onlyAnswers (take s) r) :
    ∃ t, hostCommand s code take = .next t ∧ s.onlyAnswers t r := by
  have ⟨⟨_, _, _, atRest⟩, _⟩ := takes
  have ⟨⟨_, _, _, _, pool⟩, _, _, _, slots, _⟩ := answers
  have rest : (take s).poolAtRest := State.poolAtRest_congr atRest pool (by simp only [Qe.openBudgets, slots])
  exact ⟨_, hostCommand_of_takes s code take takes slot rest, State.onlyAnswers_startAccesses answers⟩

/-! ### A command that holds no slot (R164, R166) -/

@[simp] theorem State.begin_entry : s.begin.entry p = s.entry p := rfl
@[simp] theorem State.begin_sense : s.begin.sense p = s.sense p := rfl
@[simp] theorem State.begin_tle : s.begin.tle p = s.tle p := rfl

/-- The completion from the reserved room is all that such a command leaves. -/
theorem State.onlyAnswers_reply (tag : Word16) (code port : Byte) (status : Status) (result : List Byte)
    (free : s.qe.reserved = false) :
    s.onlyAnswers (s.begin.reply tag code port status result) (.completion tag code port status result) := by
  have window : s.sameWindow (s.begin.reply tag code port status result) :=
    (congrArg (fun b => { s.qe with reserved := b }) free.symm :)
  exact ⟨⟨rfl, rfl, rfl, rfl, rfl⟩, window, ⟨rfl, rfl⟩, rfl, rfl, rfl⟩

theorem hostCommand_replies (tag : Word16) (code port : Byte) (status : Status) (result : List Byte)
    (take : State → State) (takes : s.takes) (short : mayBeLong code = false)
    (replies : take s = s.begin.reply tag code port status result) :
    ∃ t, hostCommand s code take = .next t ∧ s.onlyAnswers t (.completion tag code port status result) := by
  have ⟨⟨_, ⟨_, _, free⟩, _, _⟩, _⟩ := takes
  refine hostCommand_of_onlyAnswers s code take _ takes (by simp [short]) ?_
  rw [replies]
  exact s.onlyAnswers_reply tag code port status result free

/-! ### A command that completes from the slot it has just opened (R143, R144, R155) -/

section
variable (sl : Slot) (next : Nat)

theorem Slot.order_lt_of_sound (sound : sl.sound next = true) : sl.order < next := by
  simp only [Slot.sound, Bool.and_eq_true, decide_eq_true_eq] at sound
  exact sound.1

/-- A SYNC does not wait for a command taken after it. -/
theorem Slot.relieve_of_sound (sound : sl.sound next = true) : sl.relieve next = sl := by
  obtain ⟨order, tag, code, port, bound, kind⟩ := sl
  cases kind with
  | sync waitsFor count =>
    have earlier : ∀ o ∈ waitsFor, o < next := by
      simp only [Slot.sound, Bool.and_eq_true, List.all_eq_true, decide_eq_true_eq] at sound
      exact sound.2.2
    have kept : (waitsFor.filter fun o => o != next) = waitsFor :=
      List.filter_eq_self.2 fun o ho => by simpa using (earlier o ho).ne
    simp [Slot.relieve, kept]
  | _ => rfl

theorem Slot.syncDone_of_sound (sound : sl.sound next = true) : sl.syncDone = false := by
  obtain ⟨order, tag, code, port, bound, kind⟩ := sl
  cases kind with
  | sync waitsFor count =>
    simp only [Slot.sound, Bool.and_eq_true, Bool.not_eq_true'] at sound
    exact sound.2.1
  | _ => rfl

end

/-- The slot just opened is found by its order number, its end relieves no SYNC, and the older slots stay. -/
theorem Qe.complete_just_opened (b : Qe) (sl : Slot) (status : Status) (result : List Byte)
    (order : sl.order = b.nextOrder) (sound : (b.slots.all fun x => x.sound b.nextOrder) = true) :
    ({ b with slots := b.slots ++ [sl], nextOrder := b.nextOrder + 1 } : Qe).complete b.nextOrder status result =
      { b with
        nextOrder := b.nextOrder + 1
        backlog := b.backlog ++ [.completion sl.tag sl.code sl.port status result] } := by
  rw [List.all_eq_true] at sound
  have older : ∀ x ∈ b.slots, x.order ≠ b.nextOrder := fun x hx => (x.order_lt_of_sound _ (sound x hx)).ne
  have found : ((b.slots ++ [sl]).find? fun x => x.order == b.nextOrder) = some sl := by
    have none : (b.slots.find? fun x => x.order == b.nextOrder) = none :=
      List.find?_eq_none.2 fun x hx => by simpa using older x hx
    simp [List.find?_append, none, order]
  have left : ((b.slots ++ [sl]).filter fun x => x.order != b.nextOrder) = b.slots := by
    have kept : (b.slots.filter fun x => x.order != b.nextOrder) = b.slots :=
      List.filter_eq_self.2 fun x hx => by simpa using older x hx
    simp [List.filter_append, kept, order]
  have same : (b.slots.map fun x => x.relieve b.nextOrder) = b.slots :=
    (List.map_congr_left fun x hx => x.relieve_of_sound _ (sound x hx)).trans (List.map_id b.slots)
  have waiting : b.slots.find? Slot.syncDone = none :=
    List.find?_eq_none.2 fun x hx => by simp [x.syncDone_of_sound _ (sound x hx)]
  simp only [Qe.complete, found, Qe.closeSlot, order, left, same]
  exact Qe.closeSyncs_of_none _ _ waiting

theorem State.onlyAnswers_complete_openSlot (tag : Word16) (code port : Byte) (bound : Option PortNo) (kind : OpenKind)
    (status : Status) (result : List Byte) (sound : s.slotsSound) :
    s.onlyAnswers ((s.openSlot tag code port bound kind).complete s.qe.nextOrder status result)
      (.completion tag code port status result) := by
  let sl : Slot :=
    { order := s.qe.nextOrder, tag := tag, code := code, port := port, bound := bound, kind := kind }
  have done := s.qe.complete_just_opened sl status result rfl sound.2
  have qe : ((s.openSlot tag code port bound kind).complete s.qe.nextOrder status result).qe = _ := done
  refine ⟨⟨rfl, rfl, rfl, rfl, rfl⟩, ?_, ⟨rfl, rfl⟩, ?_, ?_, ?_⟩ <;> simp only [State.sameWindow, qe, sl]

@[simp] theorem State.openSlot_entry (tag : Word16) (code port : Byte) (bound : Option PortNo) (kind : OpenKind) :
    (s.openSlot tag code port bound kind).entry p = s.entry p := rfl
@[simp] theorem State.openSlot_tle (tag : Word16) (code port : Byte) (bound : Option PortNo) (kind : OpenKind) :
    (s.openSlot tag code port bound kind).tle p = s.tle p := rfl

theorem hostCommand_completes (tag : Word16) (code port : Byte) (bound : Option PortNo) (kind : OpenKind)
    (status : Status) (result : List Byte) (take : State → State) (takes : s.takesLong)
    (completes : take s = (s.openSlot tag code port bound kind).complete s.qe.nextOrder status result) :
    ∃ t, hostCommand s code take = .next t ∧ s.onlyAnswers t (.completion tag code port status result) := by
  obtain ⟨takes, room⟩ := takes
  have ⟨⟨_, _, sound, _⟩, _⟩ := takes
  refine hostCommand_of_onlyAnswers s code take _ takes (fun _ => room) ?_
  rw [completes]
  exact s.onlyAnswers_complete_openSlot tag code port bound kind status result sound

/-! ### A port that enters VACANT (R41, R42) -/

@[simp] theorem State.enterVacant_entry_self :
    (s.enterVacant p).entry p =
      { s.entry p with state := if (s.sense p).band.present then .sensing else .vacant } := by
  cases band : (s.sense p).band.present <;> simp [State.enterVacant, State.enterSensing, band]

@[simp] theorem State.enterVacant_sense_self :
    (s.enterVacant p).sense p =
      { s.sense p with
        mode := if (s.sense p).band.present then .debounce else .watch
        attachTimer := if (s.sense p).band.present then some 20000 else none, detachTimer := none } := by
  cases band : (s.sense p).band.present <;>
    simp [State.enterVacant, State.enterSensing, band, Config.attachDebounce]

theorem State.enterVacant_of_ne (h : q ≠ p) :
    (s.enterVacant p).entry q = s.entry q ∧ (s.enterVacant p).sense q = s.sense q := by
  cases band : (s.sense p).band.present <;>
    simp [State.enterVacant, State.enterSensing, band, h, State.modEntry_entry_of_ne, State.modSense_sense_of_ne]

/-- Nothing but lease table and Sense Units changes. -/
theorem State.enterVacant_elsewhere (entries : Vector Entry 8) (senses : Vector SenseUnit 8) :
    { s.enterVacant p with entries := entries, senses := senses } = { s with entries := entries, senses := senses } := by
  unfold State.enterVacant
  dsimp only
  split <;> rfl

/-! ### PORT_ENABLE (R150) -/

section
variable (tag : Word16) (port : Byte)

theorem State.takePortEnable_of_badPort (h : 8 ≤ port.toNat) :
    s.takePortEnable tag port = s.begin.reply tag 0x02 port .badPort [] := by
  simp [State.takePortEnable, portOf_of_ge port h]

theorem State.takePortEnable_of_busyLine (off : (s.entry p).state = .off)
    (busy : (s.tle p).sendingClear = true ∨ (s.tle p).test.isSome = true) :
    s.takePortEnable tag (byteOf p.val) = s.begin.reply tag 0x02 (byteOf p.val) .badState [] := by
  simp [State.takePortEnable, off, busy]

/-- An enable starts the port from VACANT with its consecutive faults forgotten. -/
theorem State.takePortEnable_of_off (off : (s.entry p).state = .off) (clear : (s.tle p).sendingClear = false)
    (test : (s.tle p).test = none) :
    s.takePortEnable tag (byteOf p.val) =
      ((s.begin.modEntry p fun e => { e with faults := 0 }).enterVacant p).reply tag 0x02 (byteOf p.val) .ok
        [if (s.sense p).band.present then 2 else 1] := by
  have vacant : byteOf PortState.vacant.code = 1 := rfl
  have sensing : byteOf PortState.sensing.code = 2 := rfl
  cases band : (s.sense p).band.present <;>
    simp [State.takePortEnable, off, clear, test, band, vacant, sensing]

theorem State.takePortEnable_of_notOff (on : (s.entry p).state ≠ .off) :
    s.takePortEnable tag (byteOf p.val) =
      s.begin.reply tag 0x02 (byteOf p.val) .ok [byteOf (s.entry p).state.code] := by
  simp [State.takePortEnable, on]

end

/-- The port is the only thing that an enable changes beside its completion. -/
theorem exec_portEnable_of_off (tag : Word16) (takes : s.takes) (off : (s.entry p).state = .off)
    (clear : (s.tle p).sendingClear = false) (test : (s.tle p).test = none) :
    ∃ t, exec (.portEnable tag (byteOf p.val)) s = .next t
      ∧ t.entry p =
          { s.entry p with
            faults := 0, state := if (s.sense p).band.present then .sensing else .vacant }
      ∧ t.sense p =
          { s.sense p with
            mode := if (s.sense p).band.present then .debounce else .watch
            attachTimer := if (s.sense p).band.present then some 20000 else none, detachTimer := none }
      ∧ (∀ q : PortNo, q ≠ p → t.entry q = s.entry q ∧ t.sense q = s.sense q)
      ∧ s.onlyAnswers { t with entries := s.entries, senses := s.senses }
          (.completion tag 0x02 (byteOf p.val) .ok [if (s.sense p).band.present then 2 else 1]) := by
  let cleared := s.begin.modEntry p fun e => { e with faults := 0 }
  let result : List Byte := [if (s.sense p).band.present then 2 else 1]
  have taken : s.takePortEnable tag (byteOf p.val) = (cleared.enterVacant p).reply tag 0x02 (byteOf p.val) .ok result :=
    s.takePortEnable_of_off p tag off clear test
  have ⟨⟨_, ⟨_, _, free⟩, _, atRest⟩, _⟩ := takes
  have answers : s.onlyAnswers
      { (cleared.enterVacant p).reply tag 0x02 (byteOf p.val) .ok result with entries := s.entries, senses := s.senses }
      (.completion tag 0x02 (byteOf p.val) .ok result) := by
    have begun : { cleared.enterVacant p with entries := s.entries, senses := s.senses } = s.begin :=
      cleared.enterVacant_elsewhere p s.entries s.senses
    have replied : { (cleared.enterVacant p).reply tag 0x02 (byteOf p.val) .ok result with
          entries := s.entries, senses := s.senses } = s.begin.reply tag 0x02 (byteOf p.val) .ok result :=
      (congrArg (fun x : State => x.reply tag 0x02 (byteOf p.val) .ok result) begun :)
    rw [replied]
    exact s.onlyAnswers_reply tag 0x02 (byteOf p.val) .ok result free
  have rest : (s.takePortEnable tag (byteOf p.val)).poolAtRest := by
    have ⟨⟨_, _, _, _, pool⟩, _, _, _, slots, _⟩ := answers
    rw [taken]
    exact State.poolAtRest_congr atRest pool (congrArg (fun l => (l.filter fun sl => sl.kind == .setBudget).length) slots)
  have runs := hostCommand_of_takes s 0x02 (fun x => x.takePortEnable tag (byteOf p.val)) takes nofun rest
  rw [taken] at runs
  refine ⟨_, runs, ?_, ?_, fun q other => ?_, State.onlyAnswers_startAccesses answers⟩
  · have entry : cleared.entry p = { s.entry p with faults := 0 } := s.begin.modEntry_entry_self p _
    exact (cleared.enterVacant_entry_self p).trans (by rw [entry]; rfl)
  · exact cleared.enterVacant_sense_self p
  · obtain ⟨entry, sense⟩ := cleared.enterVacant_of_ne p q other
    exact ⟨entry.trans (s.begin.modEntry_entry_of_ne p q _ other), sense⟩

/-- Settles O18, one case of `State.takePortEnable` for each clause: three of them reply and do nothing else
(`hostCommand_replies`), and `exec_portEnable_of_off` is the fourth. -/
theorem portEnable : Obligations.PortEnable := by
  intro tag port s takes
  refine ⟨fun bad => ?_, ?_⟩
  · exact hostCommand_replies s tag 0x02 port .badPort [] _ takes rfl (s.takePortEnable_of_badPort tag port bad)
  · rintro p rfl
    refine ⟨fun off busy => ?_, exec_portEnable_of_off s p tag takes, fun on => ?_⟩
    · exact hostCommand_replies s tag 0x02 _ .badState [] _ takes rfl (s.takePortEnable_of_busyLine p tag off busy)
    · exact hostCommand_replies s tag 0x02 _ .ok _ _ takes rfl (s.takePortEnable_of_notOff p tag on)

/-! ### RELAY (R153) -/

/-- A NOTE goes to the back of the queue, whatever waits there (R72). -/
theorem State.queueFrame_note (order : Nat) (tag : Word16) (bytes : List Byte) :
    s.queueFrame p (.note order tag bytes) = s.modTle p fun t => t.queues (.note order tag bytes) := rfl

/-- A list that is long enough needs no padding. -/
theorem padTo_of_le (n : Nat) (bs : List Byte) (h : n ≤ bs.length) : padTo n bs = bs.take n :=
  List.take_append_of_le_length h

section
variable (tag : Word16) (port count : Byte) (bytes : List Byte)

theorem State.takeRelay_of_badPort (h : 8 ≤ port.toNat) :
    s.takeRelay tag port count bytes =
      (s.openSlot tag 0x08 port none (.relay count)).complete s.qe.nextOrder .badPort [] := by
  simp [State.takeRelay, portOf_of_ge port h]

theorem State.takeRelay_of_badCount (h : count.toNat = 0 ∨ 16 < count.toNat) :
    s.takeRelay tag (byteOf p.val) count bytes =
      (s.openSlot tag 0x08 (byteOf p.val) (some p) (.relay count)).complete s.qe.nextOrder .badParam [] := by
  simp [State.takeRelay, h]

variable (low : 1 ≤ count.toNat) (high : count.toNat ≤ 16)
include low high

theorem State.takeRelay_of_noModule (absent : (s.entry p).module = none) :
    s.takeRelay tag (byteOf p.val) count bytes =
      (s.openSlot tag 0x08 (byteOf p.val) (some p) (.relay count)).complete s.qe.nextOrder .badState [] := by
  have good : ¬(count.toNat = 0 ∨ 16 < count.toNat) := by omega
  simp [State.takeRelay, good, absent]

theorem State.takeRelay_of_twoHeld (announced : (s.entry p).module.isSome = true) (full : 2 ≤ (s.tle p).notesHeld) :
    s.takeRelay tag (byteOf p.val) count bytes =
      (s.openSlot tag 0x08 (byteOf p.val) (some p) (.relay count)).complete s.qe.nextOrder .queueFull [] := by
  have good : ¬(count.toNat = 0 ∨ 16 < count.toNat) := by omega
  simp [State.takeRelay, good, Option.isSome_iff_ne_none.1 announced, full]

theorem State.takeRelay_of_room (announced : (s.entry p).module.isSome = true) (room : (s.tle p).notesHeld < 2)
    (long : bytes.length = 16) :
    s.takeRelay tag (byteOf p.val) count bytes =
      (s.openSlot tag 0x08 (byteOf p.val) (some p) (.relay count)).modTle p fun t =>
        t.queues (.note s.qe.nextOrder tag (bytes.take count.toNat)) := by
  have good : ¬(count.toNat = 0 ∨ 16 < count.toNat) := by omega
  have fits : count.toNat ≤ bytes.length := by omega
  simp [State.takeRelay, good, Option.isSome_iff_ne_none.1 announced, Nat.not_le.2 room, padTo_of_le _ _ fits,
    State.queueFrame_note]

end

/-- A RELAY's slot is no SET_BUDGET, so BP stays at rest, and QE is told of the slot alone. -/
theorem exec_relay_of_room (tag : Word16) (count : Byte) (bytes : List Byte) (takes : s.takesLong)
    (long : bytes.length = 16) (low : 1 ≤ count.toNat) (high : count.toNat ≤ 16)
    (announced : (s.entry p).module.isSome = true) (room : (s.tle p).notesHeld < 2) :
    ∃ t, exec (.relay tag (byteOf p.val) count bytes) s = .next t
      ∧ t.tle p = (s.tle p).queues (.note s.qe.nextOrder tag (bytes.take count.toNat))
      ∧ (∀ q : PortNo, q ≠ p → t.tle q = s.tle q)
      ∧ t.entries = s.entries ∧ t.senses = s.senses ∧ t.psi = s.psi ∧ t.pool = s.pool
      ∧ s.told t true p [] []
          (s.qe.slots ++
            [{ order := s.qe.nextOrder, tag := tag, code := 0x08, port := byteOf p.val, bound := some p
               kind := .relay count }]) := by
  let opened := s.openSlot tag 0x08 (byteOf p.val) (some p) (.relay count)
  let note : TxFrame := .note s.qe.nextOrder tag (bytes.take count.toNat)
  let queued := opened.modTle p fun t => t.queues note
  have taken : s.takeRelay tag (byteOf p.val) count bytes = queued :=
    s.takeRelay_of_room p tag count bytes low high announced room long
  have rest : queued.poolAtRest := by
    obtain ⟨⟨⟨-, -, -, atRest⟩, -⟩, -⟩ := takes
    exact State.poolAtRest_congr atRest rfl (by simp [queued, opened, State.openSlot, Qe.openBudgets])
  have told : s.told queued true p [] [] _ :=
    ⟨(List.append_nil _).symm, rfl, rfl, rfl, rfl, rfl⟩
  have runs := hostCommand_of_takes s 0x08 (fun x => x.takeRelay tag (byteOf p.val) count bytes) takes.1
    (fun _ => takes.2) (taken ▸ rest)
  rw [taken] at runs
  exact ⟨_, runs, opened.modTle_tle_self p fun t => t.queues note,
    fun q other => opened.modTle_tle_of_ne p q (fun t => t.queues note) other, rfl, rfl, rfl, rfl, State.told_startAccesses p told⟩

/-- Settles O26, one case of `State.takeRelay` for each clause: the four checks complete from the command's own slot
(`hostCommand_completes`), and `exec_relay_of_room` queues the NOTE. -/
theorem relayQueuesANote : Obligations.RelayQueuesANote := by
  intro tag port count bytes s takes long
  refine ⟨fun bad => ?_, ?_⟩
  · exact hostCommand_completes s tag 0x08 port none _ .badPort [] _ takes
      (s.takeRelay_of_badPort tag port count bytes bad)
  · rintro p rfl
    refine ⟨fun bad => ?_, fun low high absent => ?_, fun low high announced full => ?_, ?_⟩
    · exact hostCommand_completes s tag 0x08 _ (some p) _ .badParam [] _ takes
        (s.takeRelay_of_badCount p tag count bytes bad)
    · exact hostCommand_completes s tag 0x08 _ (some p) _ .badState [] _ takes
        (s.takeRelay_of_noModule p tag count bytes low high absent)
    · exact hostCommand_completes s tag 0x08 _ (some p) _ .queueFull [] _ takes
        (s.takeRelay_of_twoHeld p tag count bytes low high announced full)
    · exact exec_relay_of_room s p tag count bytes takes long

end Sys2Proof.Machine
end

