-- ==== Sys2Proof/Proofs/LinkSnapshot.lean ====
section
/-! QUERY_LINK (R174): an equation for each outcome of its checks, and the clear that follows the snapshot. -/

namespace Sys2Proof.Machine

open Sys2Proof

variable (s : State) (p : PortNo)

/-! ### The flag byte (R174) -/

theorem flagOf_of_two_le (b : Byte) (h : 2 ≤ b.toNat) : flagOf b = none := by
  have notZero : b ≠ 0 := by rintro rfl; contradiction
  have notOne : b ≠ 1 := by rintro rfl; contradiction
  rw [flagOf, if_neg notZero, if_neg notOne]

theorem flagOf_of_toNat_eq_zero (b : Byte) (h : b.toNat = 0) : flagOf b = some false := by
  obtain rfl : b = 0 := BitVec.eq_of_toNat_eq h
  rfl

theorem flagOf_of_toNat_eq_one (b : Byte) (h : b.toNat = 1) : flagOf b = some true := by
  obtain rfl : b = 1 := BitVec.eq_of_toNat_eq h
  rfl

/-! ### An answer from the reserved room, and a change of link counters -/

/-- Whatever the report, it is all that a command answering from the reserved room leaves (R166). -/
theorem State.onlyAnswers_answer (r : Report) (free : s.qe.reserved = false) : s.onlyAnswers (s.begin.answer r) r := by
  have window : s.sameWindow (s.begin.answer r) := (congrArg (fun b => { s.qe with reserved := b }) free.symm :)
  exact ⟨⟨rfl, rfl, rfl, rfl, rfl⟩, window, ⟨rfl, rfl⟩, rfl, rfl, rfl⟩

@[simp] theorem State.count_tle_self (f : Counters → Counters) :
    (s.count p f).tle p = { s.tle p with counters := f (s.tle p).counters } :=
  s.modTle_tle_self p _

/-! ### The outcomes of QUERY_LINK -/

section
variable (tag : Word16) (port clear : Byte)

theorem State.takeQueryLink_of_badPort (h : 8 ≤ port.toNat) :
    s.takeQueryLink tag port clear = s.begin.reply tag 0x0B port .badPort [] := by
  simp [State.takeQueryLink, portOf_of_ge port h]

theorem State.takeQueryLink_of_badFlag (h : flagOf clear = none) :
    s.takeQueryLink tag (byteOf p.val) clear = s.begin.reply tag 0x0B (byteOf p.val) .badParam [] := by
  simp [State.takeQueryLink, h]

theorem State.takeQueryLink_of_keep (h : flagOf clear = some false) :
    s.takeQueryLink tag (byteOf p.val) clear = s.begin.answer (.linkSnapshot tag p false (s.tle p).counters) := by
  simp [State.takeQueryLink, h]

theorem State.takeQueryLink_of_clear (h : flagOf clear = some true) :
    s.takeQueryLink tag (byteOf p.val) clear =
      (s.begin.answer (.linkSnapshot tag p true (s.tle p).counters)).count p fun _ => Counters.zero := by
  simp [State.takeQueryLink, h]

end

/-- The snapshot is answered before the counters are cleared, and the clear reaches the port's engine alone, so that
BP stays at rest. -/
theorem exec_queryLink_of_clear (tag : Word16) (clear : Byte) (takes : s.takes) (flag : flagOf clear = some true) :
    ∃ t, exec (.queryLink tag (byteOf p.val) clear) s = .next t
      ∧ t.tle p = { s.tle p with counters := Counters.zero }
      ∧ (∀ q : PortNo, q ≠ p → t.tle q = s.tle q)
      ∧ s.onlyAnswers { t with tles := s.tles } (.linkSnapshot tag p true (s.tle p).counters) := by
  let snapshot : Report := .linkSnapshot tag p true (s.tle p).counters
  let answered := s.begin.answer snapshot
  have taken : s.takeQueryLink tag (byteOf p.val) clear = answered.count p fun _ => Counters.zero :=
    s.takeQueryLink_of_clear p tag clear flag
  have ⟨⟨_, ⟨_, _, free⟩, _, atRest⟩, _⟩ := takes
  have answers : s.onlyAnswers answered snapshot := s.onlyAnswers_answer snapshot free
  have rest : (s.takeQueryLink tag (byteOf p.val) clear).poolAtRest := by
    rw [taken]
    exact State.poolAtRest_congr atRest rfl rfl
  have runs := hostCommand_of_takes s 0x0B (fun x => x.takeQueryLink tag (byteOf p.val) clear) takes nofun rest
  rw [taken] at runs
  exact ⟨_, runs, answered.count_tle_self p fun _ => Counters.zero,
    fun q other => answered.count_tle_of_ne p q (fun _ => Counters.zero) other,
    State.onlyAnswers_startAccesses answers⟩

/-- Settles O28, one case of `State.takeQueryLink` for each clause: two refusals and the snapshot without clear only
answer, and `exec_queryLink_of_clear` is the fourth. -/
theorem queryLinkTakesThenClears : Obligations.QueryLinkTakesThenClears := by
  intro tag port clear s takes
  refine ⟨fun bad => ?_, ?_⟩
  · exact hostCommand_replies s tag 0x0B port .badPort [] _ takes rfl (s.takeQueryLink_of_badPort tag port clear bad)
  · rintro p rfl
    refine ⟨fun bad => ?_, fun keep => ?_, fun clears => ?_⟩
    · exact hostCommand_replies s tag 0x0B _ .badParam [] _ takes rfl
        (s.takeQueryLink_of_badFlag p tag clear (flagOf_of_two_le clear bad))
    · have ⟨⟨_, ⟨_, _, free⟩, _, _⟩, _⟩ := takes
      refine hostCommand_of_onlyAnswers s 0x0B (fun x => x.takeQueryLink tag (byteOf p.val) clear) _ takes nofun ?_
      rw [s.takeQueryLink_of_keep p tag clear (flagOf_of_toNat_eq_zero clear keep)]
      exact s.onlyAnswers_answer _ free
    · exact exec_queryLink_of_clear s p tag clear takes (flagOf_of_toNat_eq_one clear clears)

end Sys2Proof.Machine
end
